-- ==== Sys2Proof/Word.lean ====
section
/-! DEFINITION. The words of the CZ3472 (00_scope.md, Conventions): bytes, 32-bit words, 32-bit sequences, 48-bit times, 16-bit checksums and the 39 bits a DRAM word is stored in (R132). -/

namespace Sys2Proof

/-- A byte (00, Conventions). -/
abbrev Byte := BitVec 8

/-- A word is 32 bits (00, Conventions). -/
abbrev Word := BitVec 32

/-- A record, page or generation number: 32 bits, wrapping (00, Conventions). -/
abbrev Seq := BitVec 32

/-- A time base value in milliseconds (R17). -/
abbrev Time := BitVec 48

/-- A checksum (R79). -/
abbrev Sum16 := BitVec 16

/-- A DRAM word as stored: 32 data bits below 7 check bits (R132). -/
abbrev Code := BitVec 39

/-- One of the four journal classes (R1), and one of the four contact inputs (R166). -/
abbrev ClassId := Fin 4

/-- One of the eight shadow slots (R80). -/
abbrev SlotId := Fin 8

/-- A word of erased flash (00, Conventions). -/
def erasedWord : Word := 0xFFFFFFFF#32

end Sys2Proof
end

