-- ==== Sys2Proof/Syntax.lean ====
section
/-! DEFINITION. The commands of the CZ3472: one constructor for each row of spec/opcode_table.json, in the table's order. The table gives its rows no operands; the operands are the model's (log 9, log 10). -/

namespace Sys2Proof

/-- The two ports (R109). -/
inductive Port where
  | svp
  | mnp
deriving DecidableEq, Repr

/-- A port request as the master presents it (R109). -/
structure Request where
  port : Port
  /-- true for a write, false for a read -/
  write : Bool
  /-- byte address of the first word -/
  addr : BitVec 32
  /-- burst length L: 1, 2, 4 or 8 words -/
  len : Nat
  /-- byte enables, bit k for byte k of the word -/
  enables : BitVec 4
  /-- the L words of a write; empty for a read -/
  data : List Word
deriving DecidableEq, Repr

/-- Bits that flipped in the stored DRAM word at a word offset since it was last accessed (log 10). -/
structure Upset where
  offset : Nat
  flips : Code
deriving DecidableEq, Repr

/-- A flash word the device left at another value than the operation gives it (log 10). -/
structure Defect where
  /-- word within the page (PROGRAM_END) or the block (ERASE_END) -/
  word : Nat
  value : Word
deriving DecidableEq, Repr

/-- The commands. -/
inductive Instr where
  | powerOn
  | powerLoss
  | restartAsserted
  | restartReleased (strap : Bool)
  | coldFillEnd
  | recoveryReadComplete
  | portRequestArrival (request : Request)
  | plainRead (port : Port)
  | plainWrite (port : Port)
  | mirrorRead (port : Port)
  | acknowledgeWrite (port : Port)
  | openingWord (port : Port)
  | payloadWord (port : Port)
  | journalBurst (port : Port)
  | imageRead (port : Port)
  | imageWrite (port : Port)
  | flashRead (port : Port)
  | directionRefusal (port : Port)
  | nowindow (port : Port)
  | assemblyLimitExpiry (port : Port) (cls : ClassId)
  | ringWriteStart
  | ringWriteComplete
  | outboxDeparture
  | captureConsumed
  | schedulerChoice
  | candidateReadComplete
  | flushDeadlineExpiry
  | goInFlight
  | upkeepEraseRequest
  | jobStart
  | readJobEnd
  | programEnd (defects : List Defect)
  | eraseEnd (defects : List Defect)
  | blankCheckEnd
  | verifyEnd
  | flashTimeout
  | eraseSuspension
  | eraseAbortEnd
  | sourceFetchComplete
  | slotFillComplete
  | imageIdleExpiry (slot : SlotId)
  | burnStart
  | burnShadowReadComplete
  | arbiterChoice (upsets : List Upset)
  | portDramGrantEnd
  | writeBackEnd
  | patrolReadEnd
  | refreshTimerExpiry
  | urgentRefresh
  | trickleRefresh
  | refreshEnd
  | hotChange (level : Bool)
  | selfRefreshEntered
  | selfRefreshExit
  | lpreqAsserted
  | lpreqReleased
  | pfwAsserted
  | pfwReleased
  | relapseTimerExpiry
  | dozeAnnouncement
  | dozeCommitPoint
  | wakeTimerExpiry
  | drainEnd
  | contactEdge (input : ClassId) (level : Bool)
  | debounceEnd (input : ClassId)
  | quietExpiry
  | svrstPulseEnd
  | mirrorWriteStart
  | mirrorWriteComplete
  | powerOnResetEnd (strap : Bool)
  | powerGatingRefusal (port : Port)
  | portOrSplitRefusal (port : Port)
  | mirrorWriteRefusal (port : Port)
  | journalOffsetRangeRefusal (port : Port)
  | partRequestGrantEnd
deriving DecidableEq, Repr

end Sys2Proof
end

