-- ==== Sys2Proof/Config.lean ====
section
/-! DEFINITION. What the manual leaves open, as constants without a body: nothing in Lean can evaluate them or prove a value of them (log 4). -/

namespace Sys2Proof

/-- FREE VALUE (R73, R74, R78; log 4). Whether the interrupted flash operation numbered `n` (the counter of `State.free`)
had reached the flash word at an address: an erase reached it when it reads FFFFFFFFh, a torn program left it erased. -/
opaque Config.erasedAt : Nat → Nat → Bool

end Sys2Proof
end

