-- ==== Sys2Proof/Machine/Fixed.lean ====
section
/-! DEFINITION. Fixed numbers of like things, as structures with named fields: one value per class or contact input, per slot or attention cause, per port, per DRAM requester. -/

namespace Sys2Proof.Machine

/-- One value for each class 0..3 (R1), contact input 0..3 (R166) or open-row entry 0..3 (R126). -/
structure Four (α : Type) where
  c0 : α
  c1 : α
  c2 : α
  c3 : α
deriving DecidableEq, Repr

/-- The value at an index. -/
def Four.get {α : Type} (f : Four α) : Fin 4 → α
  | 0 => f.c0
  | 1 => f.c1
  | 2 => f.c2
  | 3 => f.c3

/-- The four values with the one at an index replaced. -/
def Four.set {α : Type} (f : Four α) (i : Fin 4) (v : α) : Four α :=
  match i with
  | 0 => { f with c0 := v }
  | 1 => { f with c1 := v }
  | 2 => { f with c2 := v }
  | 3 => { f with c3 := v }

/-- The same value four times. -/
def Four.const {α : Type} (v : α) : Four α := ⟨v, v, v, v⟩

/-- The four values in order. -/
def Four.toList {α : Type} (f : Four α) : List α := [f.c0, f.c1, f.c2, f.c3]

/-- Each value mapped. -/
def Four.map {α β : Type} (g : α → β) (f : Four α) : Four β := ⟨g f.c0, g f.c1, g f.c2, g f.c3⟩

/-- Four values from a function of the index. -/
def Four.build {β : Type} (g : Fin 4 → β) : Four β := ⟨g 0, g 1, g 2, g 3⟩

/-- One value for each of eight shadow slots (R80) or attention causes (R176). -/
structure Eight (α : Type) where
  e0 : α
  e1 : α
  e2 : α
  e3 : α
  e4 : α
  e5 : α
  e6 : α
  e7 : α
deriving DecidableEq, Repr

/-- The value at an index. -/
def Eight.get {α : Type} (f : Eight α) : Fin 8 → α
  | 0 => f.e0
  | 1 => f.e1
  | 2 => f.e2
  | 3 => f.e3
  | 4 => f.e4
  | 5 => f.e5
  | 6 => f.e6
  | 7 => f.e7

/-- The eight values with the one at an index replaced. -/
def Eight.set {α : Type} (f : Eight α) (i : Fin 8) (v : α) : Eight α :=
  match i with
  | 0 => { f with e0 := v }
  | 1 => { f with e1 := v }
  | 2 => { f with e2 := v }
  | 3 => { f with e3 := v }
  | 4 => { f with e4 := v }
  | 5 => { f with e5 := v }
  | 6 => { f with e6 := v }
  | 7 => { f with e7 := v }

/-- The same value eight times. -/
def Eight.const {α : Type} (v : α) : Eight α := ⟨v, v, v, v, v, v, v, v⟩

/-- The eight values in order. -/
def Eight.toList {α : Type} (f : Eight α) : List α := [f.e0, f.e1, f.e2, f.e3, f.e4, f.e5, f.e6, f.e7]

/-- Each value mapped. -/
def Eight.map {α β : Type} (g : α → β) (f : Eight α) : Eight β :=
  ⟨g f.e0, g f.e1, g f.e2, g f.e3, g f.e4, g f.e5, g f.e6, g f.e7⟩

/-- The lowest index whose value passes a test. -/
def Eight.find {α : Type} (p : α → Bool) (f : Eight α) : Option (Fin 8) :=
  if p f.e0 then some 0 else if p f.e1 then some 1 else if p f.e2 then some 2 else if p f.e3 then some 3
  else if p f.e4 then some 4 else if p f.e5 then some 5 else if p f.e6 then some 6 else if p f.e7 then some 7
  else none

/-- One value for each port (R109). -/
structure PerPort (α : Type) where
  svp : α
  mnp : α
deriving DecidableEq, Repr

/-- The value of a port. -/
def PerPort.get {α : Type} (f : PerPort α) : Port → α
  | .svp => f.svp
  | .mnp => f.mnp

/-- The two values with a port's replaced. -/
def PerPort.set {α : Type} (f : PerPort α) (p : Port) (v : α) : PerPort α :=
  match p with
  | .svp => { f with svp := v }
  | .mnp => { f with mnp := v }

/-- The six requesters that the arbiter's policy orders (R129, R130). SCRUB is the seventh, below them all. -/
inductive Source where
  | stager
  | svp
  | mnp
  | commit
  | burn
  | mirror
deriving DecidableEq, Repr

/-- One value for each of the six requesters. -/
structure PerSource (α : Type) where
  stager : α
  svp : α
  mnp : α
  commit : α
  burn : α
  mirror : α
deriving DecidableEq, Repr

/-- The value of a requester. -/
def PerSource.get {α : Type} (f : PerSource α) : Source → α
  | .stager => f.stager
  | .svp => f.svp
  | .mnp => f.mnp
  | .commit => f.commit
  | .burn => f.burn
  | .mirror => f.mirror

/-- The six values with a requester's replaced. -/
def PerSource.set {α : Type} (f : PerSource α) (r : Source) (v : α) : PerSource α :=
  match r with
  | .stager => { f with stager := v }
  | .svp => { f with svp := v }
  | .mnp => { f with mnp := v }
  | .commit => { f with commit := v }
  | .burn => { f with burn := v }
  | .mirror => { f with mirror := v }

/-- The same value six times. -/
def PerSource.const {α : Type} (v : α) : PerSource α := ⟨v, v, v, v, v, v⟩

/-- Six values from a function of the requester. -/
def PerSource.build {α : Type} (g : Source → α) : PerSource α :=
  ⟨g .stager, g .svp, g .mnp, g .commit, g .burn, g .mirror⟩

/-- The order of R130, highest first. -/
def Source.order : List Source := [.stager, .svp, .mnp, .commit, .burn, .mirror]

/-- The requester of a port's DRAM accesses (R125). -/
def Source.ofPort : Port → Source
  | .svp => .svp
  | .mnp => .mnp

end Sys2Proof.Machine
end

