-- ==== Sys2Proof/Machine/Types.lean ====
section
/-! DEFINITION. The types of the parts of the state: profile, records, ports, rings, commit, flash, burns, DRAM, power, contacts, mirror, start-up. Plain data only. -/

namespace Sys2Proof.Machine

/-! ## Profile (R181, R195) -/

/-- Arbiter policy (R129). -/
inductive ArbPolicy where
  | sp
  | wsp
deriving DecidableEq, Repr

/-- Commit scheduling algorithm (R40). -/
inductive CommitAlg where
  | sp
  | wrr
  | dwrr
deriving DecidableEq, Repr

/-- Window kind (R112). -/
inductive WinKind where
  | plainRw
  | plainRo
  | journal
  | image
  | flashRead
  | mirror
deriving DecidableEq, Repr

/-- Edge mode of a contact input (R166). -/
inductive EdgeMode where
  | off
  | rise
  | fall
  | both
deriving DecidableEq, Repr

/-- The parameters of one class (R1). Base is a DRAM byte offset, capacity counts slots. -/
structure ClassParams where
  configured : Bool
  base : Nat
  capacity : Nat
  svp : Bool
  mnp : Bool
  weight : Nat
  quantum : Nat
deriving DecidableEq, Repr

/-- One entry of the window table (R112). -/
structure Window where
  valid : Bool
  base : Nat
  size : Nat
  svp : Bool
  mnp : Bool
  kind : WinKind
  target : Nat
deriving DecidableEq, Repr

/-- The settings of one contact input (R166): debounce in ms. -/
structure ContactCfg where
  mode : EdgeMode
  debounce : Nat
  wake : Bool
deriving DecidableEq, Repr

/-- The six values of the lock store, and the lock fields of a profile (R99). -/
structure LockVals where
  imageProgram : Bool
  imageErase : Bool
  bootRewrite : Bool
  journalRetain : Bool
  shieldS : Nat
  shieldE : Nat
  bootEnd : Nat
deriving DecidableEq, Repr

/-- A profile (R181). Times in the units of R195: refresh period 0.1 us, assembly, relapse, flush ms, image idle, quiet, wake s. -/
structure Profile where
  banks : Nat
  rows : Nat
  cols : Nat
  policy : ArbPolicy
  alg : CommitAlg
  weights : PerSource Nat
  refreshPeriod : Nat
  urgentThreshold : Nat
  spareTarget : Nat
  assemblyLimit : Nat
  relapseInterval : Nat
  flushDeadline : Nat
  imageIdle : Nat
  quietInterval : Nat
  wakeInterval : Nat
  shadowBase : Nat
  mirrorOffset : Nat
  contacts : Four ContactCfg
  lock : LockVals
  classes : Four ClassParams
  windows : List Window
deriving DecidableEq, Repr

/-! ## Records (R5, R18, R27) -/

/-- Origin of a record (R5). -/
inductive Origin where
  | svp
  | mnp
  | part
deriving DecidableEq, Repr

/-- A timestamp with its time flags (R18). -/
structure Stamp where
  time : Time
  unset : Bool
  coarse : Bool
  tset : Bool
deriving DecidableEq, Repr

/-- A complete record before it has a sequence (R12, R31). Its length n is the length of the payload. -/
structure Record where
  kind : Byte
  urgent : Bool
  origin : Origin
  stamp : Stamp
  payload : List Word
deriving DecidableEq, Repr

/-- A record in a page buffer, or as a candidate (R43, R44): words 0..3 of its slot and its n payload words. -/
structure Placed where
  cls : ClassId
  seq : Seq
  urgent : Bool
  words : List Word
deriving DecidableEq, Repr

/-! ## Ports (R109 to R118) -/

/-- Refusal reasons (R118). -/
inductive Reason where
  | nowindow
  | port
  | direction
  | protect
  | full
  | busy
  | order
  | range
  | kind
  | width
  | split
  | power
  | fault
  | notready
deriving DecidableEq, Repr

/-- A response (R109). A write answered DONE carries no words. -/
inductive Response where
  | done (data : List Word)
  | refused (reason : Reason)
deriving DecidableEq, Repr

/-- How a port's current request stands. -/
inductive Carry where
  /-- not yet taken (R110) -/
  | untaken
  /-- its DRAM read or write is presented or granted (R115) -/
  | plain
  /-- its write of the acknowledge word is presented or granted (R116) -/
  | ack
  /-- its write into an OPEN shadow slot is presented or granted (R82) -/
  | store (slot : SlotId)
  /-- it allocated a slot: fill request `k` of 64 is presented or granted, or with `k = 64` the allocating write (R83, R125) -/
  | fill (slot : SlotId) (k : Nat)
  /-- taken, and waiting at the Image Staging Unit for another write to its block (R82, R83) -/
  | imageWait
  /-- its READ job is in the port read list or carried (R71) -/
  | flash
  /-- a payload write that was taken before an abandonment of its port's records, and reaches its context after it (R15, R171;
  log 37) -/
  | taken
deriving DecidableEq, Repr

/-- One port: the queue of R110 (current request first), the stalled bus, and the responses given (log 19). -/
structure PortState where
  queue : List Request
  carry : Carry
  bus : List Request
  answers : List Response
deriving DecidableEq, Repr

/-- An open assembly context (R7): `words` holds payload word k at index k - 1; `elapsed` is the assembly timer in ms. -/
structure OpenCtx where
  kind : Byte
  n : Nat
  urgent : Bool
  words : List (Option Word)
  elapsed : Nat
deriving DecidableEq, Repr

/-! ## Staging (R20 to R37) -/

/-- Ring state of one class (R20). -/
structure ClassRing where
  next : Seq
  committed : Seq
  present : Bool
  staged : Nat
  reserved : Nat
deriving DecidableEq, Repr

/-- An entry of the ring write queue (R24): a port record names the port of its context. -/
structure RingEntry where
  cls : ClassId
  port : Option Port
  body : Record
deriving DecidableEq, Repr

/-- The Staging Unit. `writing` is the sequence of the ring write in progress (R25). -/
structure Staging where
  rings : Four ClassRing
  queue : List RingEntry
  writing : Option Seq
  last : PerPort (Four (Option Seq))
  outbox : List Record
  lost : Nat
deriving DecidableEq, Repr

/-! ## Commit (R38 to R61) -/

/-- Close cause of a page (R46). -/
inductive CloseCause where
  | fit
  | urgent
  | deadline
  | drain
deriving DecidableEq, Repr

/-- Scheduler state (R41, R42). `begun` says the DWRR turn at the position has had its quantum. -/
structure Sched where
  pos : ClassId
  begun : Bool
  credits : Four Nat
  deficits : Four Nat
deriving DecidableEq, Repr

/-- The FILLING buffer (R45) with its flush deadline timer in ms (R46). -/
structure FillBuf where
  recs : List Placed
  flush : Nat
deriving DecidableEq, Repr

/-- A CLOSED buffer (R45, R46): its records and the header content formed at close. -/
structure ClosedBuf where
  recs : List Placed
  placed : Four Seq
  mask : Four Bool
  cause : CloseCause
deriving DecidableEq, Repr

/-- The IN-FLIGHT buffer (R48, R50). `waiting` marks a failed page whose retry has not gone yet. -/
structure InFlight where
  buf : ClosedBuf
  pageSeq : Seq
  block : Nat
  page : Nat
  retry : Bool
  waiting : Bool
deriving DecidableEq, Repr

/-- A fetched candidate with the algorithm that chose its class (R43, R44). -/
structure Candidate where
  body : Placed
  alg : CommitAlg
deriving DecidableEq, Repr

/-- A candidate fetch in progress (R43). -/
structure Fetch where
  cls : ClassId
  seq : Seq
  alg : CommitAlg
deriving DecidableEq, Repr

/-- The Commit Engine. Of the two page buffers (R45) at most one is `filling`, `closed` lists the CLOSED ones oldest first,
`inflight` holds the IN-FLIGHT one; a buffer in none of the three is FREE (log 16). -/
structure Commit where
  queues : Four (List Seq)
  placedSeq : Four Seq
  placedPresent : Four Bool
  nextPage : Seq
  sched : Sched
  fetching : Option Fetch
  held : Option Candidate
  filling : Option FillBuf
  closed : List ClosedBuf
  inflight : Option InFlight
  headBlock : Nat
  headPage : Nat
  ahead : Nat
  failed : Nat
  skip : List Nat
  full : Bool
  upkeepHeld : Bool
  oldest : Option Seq
  begun : Bool
deriving DecidableEq, Repr

/-! ## Flash (R62 to R78) -/

/-- A flash job (R64), named by the block that offers it. -/
inductive Job where
  /-- port READ of `len` words from flash word address `word` (R71) -/
  | portRead (port : Port) (word len : Nat)
  /-- journal PROGRAM and VERIFY of the IN-FLIGHT buffer (R48) -/
  | pageProgram (block page : Nat)
  | pageVerify (block page : Nat)
  /-- upkeep ERASE, BLANK-CHECK and header READ (R55, R57) -/
  | upErase (block : Nat)
  | upBlank (block : Nat)
  | upHeader (block : Nat)
  /-- burn jobs (R89 to R91); `data` is the page latch (R66, R67) -/
  | burnBlank (block : Nat)
  | burnErase (block : Nat)
  | burnProgram (block page : Nat) (data : List Word)
  | burnVerify (block page : Nat) (data : List Word) (start : Sum16)
  /-- start-up: all of block 0, one page, one blank check (R181, R185, R105, R187) -/
  | suProfile
  | suPage (block page : Nat)
  | suBlank (block : Nat)
deriving DecidableEq, Repr

/-- A job at the device (R63): running time in ms, suspension count, suspend and abort requests (R72, R76). -/
structure Running where
  job : Job
  time : Nat
  suspensions : Nat
  suspendReq : Bool
  abortReq : Bool
deriving DecidableEq, Repr

/-- The Flash Operations Unit (R63) and the flash contents: (word address, word) pairs, 1024 words to a block. -/
structure Flash where
  cells : List (Nat × Word)
  current : Option Running
  suspended : Option Running
  portReads : List Job
  journal : List Job
  upkeep : List Job
  burn : List Job
  startup : List Job
deriving DecidableEq, Repr

/-! ## Images and burns (R80 to R98) -/

/-- A shadow slot (R80): block, and idle timer in ms while OPEN. -/
inductive SlotState where
  | empty
  | opened (block idle : Nat)
  | queued (block : Nat)
  | burning (block : Nat)
deriving DecidableEq, Repr

/-- The held step of a burn (R80): step 5 with the pages of its program set still to program (`none` before the shadow
reading), step 6 with page, chained checksum and mismatch. -/
inductive HeldStep where
  | s1
  | s2
  | s3
  | s4Erase
  | s4Blank
  | s5 (pages : Option (List Nat))
  | s6 (page : Nat) (sum : Sum16) (mismatch : Bool)
deriving DecidableEq, Repr

/-- What the burn waits for: nothing (paused), request `k` of a shadow reading or of a source fetch with the words read so
far, or its flash job. -/
inductive BurnAct where
  | idle
  | reading (k : Nat) (words : List Word)
  | fetching (k : Nat) (words : List Word)
  | job
deriving DecidableEq, Repr

/-- The burn in progress (R86). `newLock` holds the lock fields that passed step 2 (R88); `aborting` that PF-DRAIN stopped it (R97). -/
structure Burn where
  slot : SlotId
  block : Nat
  held : HeldStep
  act : BurnAct
  paused : Bool
  aborting : Bool
  newLock : Option LockVals
deriving DecidableEq, Repr

/-- A burn result (R95). -/
structure BurnResult where
  block : Nat
  code : Nat
  sum : Sum16
deriving DecidableEq, Repr

/-- The Image Staging Unit. `waiting` lists the ports whose access waits for another access to its block, in the order in which
they reached the unit (R82, R83). -/
structure Image where
  slots : Eight SlotState
  waiting : List Port
  queue : List SlotId
  burn : Option Burn
  results : List BurnResult
deriving DecidableEq, Repr

/-! ## DRAM (R123 to R150) -/

/-- What a DRAM request does, at a word offset (R125). -/
inductive DramReq where
  | read (off len : Nat)
  | write (off : Nat) (words : List Word)
  | rmw (off : Nat) (word : Word) (enables : BitVec 4)
deriving DecidableEq, Repr

/-- A grant in progress (R125): of one of the six requesters, or of SCRUB. -/
inductive Grant where
  | source (who : Source) (req : DramReq)
  | writeBack (off : Nat)
  | patrol (off : Nat)
deriving DecidableEq, Repr

/-- One entry of the open-row table (R126). -/
structure RowEntry where
  bank : Option Nat
  row : Option Nat
  rank : Nat
deriving DecidableEq, Repr

/-- Where the DRAM device stands (R129, R137, R147). -/
inductive DramMode where
  | down
  | filling
  | usable
  | selfRefresh
deriving DecidableEq, Repr

/-- The refresh in progress: none, one trickle refresh (R144), an urgent sequence (R143), the sequence at self-refresh entry (R147). -/
inductive RefreshPhase where
  | none
  | trickle
  | urgent
  | entry
deriving DecidableEq, Repr

/-- Why self-refresh entry was requested (R156, R163). -/
inductive EntryWhy where
  | doze
  | halt
deriving DecidableEq, Repr

/-- The DRAM Controller and the DRAM contents: (word offset, stored word) pairs. `residency` in ms. -/
structure Dram where
  cells : List (Nat × Code)
  mode : DramMode
  rows : Four RowEntry
  passover : PerSource Nat
  waiting : PerSource (Option DramReq)
  grant : Option Grant
  correction : List Nat
  corrected : Nat
  uncorrectable : Nat
  refresh : RefreshPhase
  owed : Nat
  timerOn : Bool
  period : Nat
  lostRefresh : Nat
  patrol : Nat
  scrub : Nat
  entryReq : Option EntryWhy
  exitReq : Bool
  residency : Nat
deriving DecidableEq, Repr

/-! ## Power, contacts, quiet timer (R151 to R172) -/

/-- Power states (R151). -/
inductive PowerState where
  | starting
  | run
  | settling
  | doze
  | roused
  | pfDrain
  | pfHalt
deriving DecidableEq, Repr

/-- An event held between the commit point and DOZE (R156). -/
inductive HeldEvent where
  | lpreqReleased
  | pfwAsserted
  | mnpArrived
  | contact (input : ClassId) (level : Bool)
deriving DecidableEq, Repr

/-- The Power Control Unit with the time base (R17) and its input levels. Wake timer: elapsed ms while it runs. -/
structure Power where
  state : PowerState
  entryPending : Bool
  wakeCause : Option Nat
  wakeTimer : Option Nat
  relapse : Nat
  time : Time
  unset : Bool
  coarse : Bool
  heldEvents : List HeldEvent
  heldExit : Bool
  lpreq : Bool
  pfw : Bool
  hot : Bool
deriving DecidableEq, Repr

/-- A held capture (R167). -/
structure Capture where
  level : Bool
  count : Nat
  first : Time
  firstCoarse : Bool
  last : Time
  lastCoarse : Bool
deriving DecidableEq, Repr

/-- The Contact Capture Unit (R166, R167). `debounce` is elapsed ms while the debounce time runs. -/
structure Contacts where
  pin : Four Bool
  tracked : Four Bool
  debounce : Four (Option Nat)
  slots : Four (Option Capture)
deriving DecidableEq, Repr

/-- The Supervisor Quiet Timer (R170): remaining ms while it runs, consecutive count; the SVRST pulse's elapsed ms (R172). -/
structure Quiet where
  remaining : Option Nat
  count : Nat
  pulse : Option Nat
deriving DecidableEq, Repr

/-! ## Mirror (R173 to R177) -/

/-- Attention causes in the order of mirror word 49 (R176, R196). -/
inductive Cause where
  | start
  | profile
  | full
  | burn
  | fault
  | lost
  | quiet
  | power
deriving DecidableEq, Repr

/-- How a cause stands in the attention set (R176). -/
inductive AttState where
  | absent
  | waiting
  | recorded (gen : Seq)
deriving DecidableEq, Repr

/-- A mirror write in progress: the copy of 64 words and the request 0..5 it has reached (R174). -/
structure MirrorWrite where
  copy : List Word
  k : Nat
deriving DecidableEq, Repr

/-- The Mirror Writer (R173). -/
structure Mirror where
  dirty : Bool
  gen : Seq
  last : Option Seq
  write : Option MirrorWrite
  attention : Eight AttState
deriving DecidableEq, Repr

/-! ## Start-up (R178 to R189) -/

/-- Supply and reset (R178, R179). -/
inductive Supply where
  | off
  | powerOnReset
  | restart
  | running
deriving DecidableEq, Repr

/-- Start-up phases (R180) that wait for something. LOCK and OPEN end within the step that reaches them; `done` once OPEN has ended. -/
inductive Phase where
  | profile
  | release
  | dram
  | mount
  | recovery
  | done
deriving DecidableEq, Repr

/-- Profile state (R181, R182, R92). -/
inductive ProfileState where
  | loaded
  | safe
  | pending
deriving DecidableEq, Repr

/-- What mount takes from a valid page (R185, R186). -/
structure PageHeader where
  seq : Seq
  placed : Four Seq
  mask : Four Bool
deriving DecidableEq, Repr

/-- Classification of a page, and of a block by its page 0 (R185, R186): `neither` of a block is DIRTY. -/
inductive PageClass where
  | erased
  | valid (header : PageHeader)
  | neither
deriving DecidableEq, Repr

/-- How far mount has come (R185 to R187): page 0 of every block, pages of the head block, block 256 of an empty journal, the run. -/
inductive MountStage where
  | leads
  | pages
  | first
  | spare
deriving DecidableEq, Repr

/-- The work of mount: the blocks found not ERASED with their classes, and the classes of the head block's pages. -/
structure Mount where
  stage : MountStage
  seen : List (Nat × PageClass)
  pages : List PageClass
deriving DecidableEq, Repr

/-- Recovery of a class at a sequence (R188). -/
structure Recovery where
  cls : ClassId
  seq : Seq
deriving DecidableEq, Repr

/-- The Start-Up Controller. `cause`, `release` and `mountResult` hold the codes of R4; `warm` that the DRAM phase was warm (R188). -/
structure StartUp where
  supply : Supply
  phase : Phase
  cause : Nat
  strap : Bool
  dramHeld : Bool
  profState : ProfileState
  release : Nat
  mountResult : Nat
  warm : Bool
  mount : Mount
  recovery : Option Recovery
  recovered : Four Nat
  ready : Bool
deriving DecidableEq, Repr

end Sys2Proof.Machine
end

