-- ==== Sys2Proof/Machine/SafeProfile.lean ====
section
/-! DEFINITION. The safe profile (R182, with R1, R112, R123, R141, R143), the lock store at manufacture (R99). -/

namespace Sys2Proof.Machine

/-- The lock store at manufacture and after field release (R99, R106). -/
def manufactureLock : LockVals :=
  { imageProgram := false, imageErase := false, bootRewrite := false, journalRetain := false
    shieldS := 1, shieldE := 255, bootEnd := 0 }

/-- An unconfigured class of the safe profile (R1). -/
def safeUnconfigured : ClassParams :=
  { configured := false, base := 0, capacity := 0, svp := false, mnp := false, weight := 0, quantum := 0 }

/-- An entry of the safe profile that is not valid (R112). -/
def safeNoWindow : Window :=
  { valid := false, base := 0, size := 0, svp := false, mnp := false, kind := .plainRw, target := 0 }

/-- The windows W0..W4 of the safe profile (R112), entries 5..11 not valid. -/
def safeWindows : List Window :=
  [ { valid := true, base := 0x00000000, size := 0x04000000, svp := true, mnp := true, kind := .plainRw, target := 0x00000000 },
    { valid := true, base := 0x04000000, size := 0x00010000, svp := true, mnp := true, kind := .plainRo, target := 0x04000000 },
    { valid := true, base := 0x04100000, size := 0x00000100, svp := true, mnp := true, kind := .mirror, target := 0x04004000 },
    { valid := true, base := 0x60000000, size := 0x00100000, svp := true, mnp := true, kind := .image, target := 0 },
    { valid := true, base := 0x60100000, size := 0x00700000, svp := true, mnp := true, kind := .flashRead, target := 256 },
    safeNoWindow, safeNoWindow, safeNoWindow, safeNoWindow, safeNoWindow, safeNoWindow, safeNoWindow ]

/-- A contact input that is OFF (R166, R182), with the default debounce time. The wake-enable flag, which an OFF input does not
use, is not given by the manual: clear (log 8). -/
def safeContact : ContactCfg := { mode := .off, debounce := 20, wake := false }

/-- The safe profile (R182). The arbiter weights, which SP does not read, and the lock fields, which no start-up applies,
are not given by the manual: weight 1 and the manufacture values (log 8). -/
def safeProfile : Profile :=
  { banks := 8, rows := 8192, cols := 1024
    policy := .sp, alg := .sp, weights := PerSource.const 1
    refreshPeriod := 78, urgentThreshold := 6, spareTarget := 2
    assemblyLimit := 20, relapseInterval := 50, flushDeadline := 1000, imageIdle := 30
    quietInterval := 0, wakeInterval := 900
    shadowBase := 0x04008000, mirrorOffset := 0x04004000
    contacts := Four.const safeContact
    lock := manufactureLock
    classes := ⟨{ configured := true, base := 0x04000000, capacity := 256, svp := true, mnp := true, weight := 1, quantum := 64 },
      safeUnconfigured, safeUnconfigured, safeUnconfigured⟩
    windows := safeWindows }

end Sys2Proof.Machine
end

