-- ==== Sys2Proof/Machine/ResetValues.lean ====
section
/-! DEFINITION. The values each block takes at power-on, one constant per block; RESTART takes the same but where a rule keeps a value (StartUp.lean). -/

namespace Sys2Proof.Machine

/-- An empty port (R110). -/
def emptyPort : PortState := { queue := [], carry := .untaken, bus := [], answers := [] }

/-- Ring state before mount has set it (R21): the values are replaced before any record can be staged. -/
def emptyRing : ClassRing := { next := 0#32, committed := 0#32, present := false, staged := 0, reserved := 0 }

/-- The Staging Unit after a reset (R30, R34, R36). -/
def resetStaging : Staging :=
  { rings := Four.const emptyRing, queue := [], writing := none
    last := ⟨Four.const none, Four.const none⟩, outbox := [], lost := 0 }

/-- The scheduler at the start of a round (R40): position class 0, every credit its class's weight, every deficit 0. -/
def startOfRound (p : Profile) : Sched :=
  { pos := 0, begun := false, credits := p.classes.map (·.weight), deficits := Four.const 0 }

/-- An empty FILLING buffer (R45). -/
def emptyFill : FillBuf := { recs := [], flush := 0 }

/-- The Commit Engine after a reset (R61); what mount sets holds placeholder values until mount (log 8). -/
def resetCommit (p : Profile) : Commit :=
  { queues := Four.const [], placedSeq := Four.const 0#32, placedPresent := Four.const false, nextPage := 0#32
    sched := startOfRound p, fetching := none, held := none, filling := some emptyFill, closed := [], inflight := none
    headBlock := 256, headPage := 0, ahead := 0, failed := 0, skip := [], full := false, upkeepHeld := false
    oldest := none, begun := false }

/-- The Flash Operations Unit after a reset (R63), over given flash contents. -/
def resetFlash (cells : List (Nat × Word)) : Flash :=
  { cells := cells, current := none, suspended := none, portReads := [], journal := [], upkeep := [], burn := [], startup := [] }

/-- The Image Staging Unit after a reset (R98). -/
def resetImage : Image := { slots := Eight.const .empty, waiting := [], queue := [], burn := none, results := [] }

/-- The open-row table with every entry closed (R126): with 4 banks entry i stays fixed to bank i. -/
def closedRows (banks : Nat) : Four RowEntry :=
  let bank (i : Nat) : Option Nat := if banks = 4 then some i else none
  ⟨⟨bank 0, none, 1⟩, ⟨bank 1, none, 2⟩, ⟨bank 2, none, 3⟩, ⟨bank 3, none, 4⟩⟩

/-- The DRAM Controller after a reset (R139, R150), over given contents and device mode. The residency timer holds 0 outside
self-refresh (log 8). -/
def resetDram (banks : Nat) (cells : List (Nat × Code)) (mode : DramMode) : Dram :=
  { cells := cells, mode := mode, rows := closedRows banks, passover := PerSource.const 0, waiting := PerSource.const none
    grant := none, correction := [], corrected := 0, uncorrectable := 0, refresh := .none, owed := 0, timerOn := false
    period := 0, lostRefresh := 0, patrol := 0, scrub := 0, entryReq := none, exitReq := false, residency := 0 }

/-- The Power Control Unit after power-on (R17, R151), with its input levels. -/
def resetPower (lpreq pfw hot : Bool) : Power :=
  { state := .starting, entryPending := false, wakeCause := none, wakeTimer := none, relapse := 0
    time := 0#48, unset := true, coarse := false, heldEvents := [], heldExit := false, lpreq := lpreq, pfw := pfw, hot := hot }

/-- The Contact Capture Unit after power-on (R169), with its input levels. -/
def resetContacts (pin : Four Bool) : Contacts :=
  { pin := pin, tracked := Four.const false, debounce := Four.const none, slots := Four.const none }

/-- The Supervisor Quiet Timer after a reset (R170, R172). -/
def resetQuiet : Quiet := { remaining := none, count := 0, pulse := none }

/-- The Mirror Writer after a reset (R173, R176). -/
def resetMirror : Mirror := { dirty := false, gen := 0#32, last := none, write := none, attention := Eight.const .absent }

/-- Mount before its first read. -/
def resetMount : Mount := { stage := .leads, seen := [], pages := [] }

/-- The Start-Up Controller after power-on (R121, R178). The phase held until PROFILE begins is PROFILE (log 44). -/
def resetStartUp (supply : Supply) : StartUp :=
  { supply := supply, phase := .profile, cause := 1, strap := false, dramHeld := false, profState := .safe, release := 0
    mountResult := 2, warm := false, mount := resetMount, recovery := none, recovered := Four.const 0, ready := false }

end Sys2Proof.Machine
end

