-- ==== Sys2Proof/Machine/State.lean ====
section
/-! DEFINITION. The state of the CZ3472, the reasons a step can stop, and the state right after reset. -/

namespace Sys2Proof.Machine

/-- Why a step stops with a fault. -/
inductive Fault where
  /-- ARBITER_CHOICE, for a request that leaves the DRAM geometry. R123 says no request that reaches the controller does:
  the words beyond are neither read nor written. Safe: only states that no run reaches stop here (log 24). -/
  | outsideGeometry
deriving DecidableEq, Repr

/-- Why a command is refused. -/
inductive Refusal where
  /-- exec, for a command that has no meaning yet. Safe. -/
  | notModelled (mnemonic : String)
  /-- PORT_REQUEST_ARRIVAL, PROGRAM_END, ERASE_END, ARBITER_CHOICE, for an operand that is not well formed (WellFormed.lean):
  no sender can issue it (R109). Safe: nothing real is stopped (log 24). -/
  | illFormed
deriving DecidableEq, Repr

/-- The state: the queue of commands, and every block of the part. -/
structure State where
  /-- commands waiting, first in, first out -/
  pending : List Instr
  /-- Port Interface Unit (R110) -/
  ports : PerPort PortState
  /-- Record Assembly Unit: eight contexts, by port and class (R7) -/
  ctx : PerPort (Four (Option OpenCtx))
  /-- Staging Unit -/
  stg : Staging
  /-- Commit Engine -/
  com : Commit
  /-- Flash Operations Unit and flash contents -/
  flash : Flash
  /-- Image Staging Unit -/
  img : Image
  /-- Lock store (R99) -/
  lock : LockVals
  /-- DRAM Controller and DRAM contents -/
  dram : Dram
  /-- Power Control Unit -/
  pow : Power
  /-- Contact Capture Unit -/
  con : Contacts
  /-- Supervisor Quiet Timer -/
  quiet : Quiet
  /-- Mirror Writer -/
  mir : Mirror
  /-- Start-Up Controller -/
  su : StartUp
  /-- the profile in force (R181) -/
  prof : Profile
  /-- the counter the free values are applied to (log 4) -/
  free : Nat
deriving DecidableEq, Repr

/-- The machine right after reset: power-on values, in power-on reset, before POWER_ON_RESET_END (R178; log 1). -/
def State.reset : State :=
  { pending := []
    ports := ⟨emptyPort, emptyPort⟩
    ctx := ⟨Four.const none, Four.const none⟩
    stg := resetStaging
    com := resetCommit safeProfile
    flash := resetFlash []
    img := resetImage
    lock := manufactureLock
    dram := resetDram safeProfile.banks [] .down
    pow := resetPower false false false
    con := resetContacts (Four.const false)
    quiet := resetQuiet
    mir := resetMirror
    su := resetStartUp .powerOnReset
    prof := safeProfile
    free := 0 }

end Sys2Proof.Machine
end

