-- ==== Sys2Proof/Machine/Ops.lean ====
section
/-! DEFINITION. Named operations over memory and words: the sparse word stores, bit fields, bytes, the checksum (R79), sequence comparison, saturating counts. -/

namespace Sys2Proof.Machine

/-! ## Sparse word stores

DRAM and flash are lists of (address, word), addresses strictly rising, no entry equal to what an unlisted address reads as (log 20). -/

/-- The word at an address; `d` is what an unlisted address reads as. -/
def readCell {w : Nat} (d : BitVec w) : List (Nat × BitVec w) → Nat → BitVec w
  | [], _ => d
  | (k, v) :: rest, a => if k = a then v else readCell d rest a

/-- The store with one word written, in canonical form. -/
def writeCell {w : Nat} (d : BitVec w) : List (Nat × BitVec w) → Nat → BitVec w → List (Nat × BitVec w)
  | [], a, v => if v = d then [] else [(a, v)]
  | (k, x) :: rest, a, v =>
    if a < k then (if v = d then (k, x) :: rest else (a, v) :: (k, x) :: rest)
    else if a = k then (if v = d then rest else (a, v) :: rest)
    else (k, x) :: writeCell d rest a v

/-- The store with a run of words written from an address upward. -/
def writeCells {w : Nat} (d : BitVec w) (cells : List (Nat × BitVec w)) (a : Nat) : List (BitVec w) → List (Nat × BitVec w)
  | [] => cells
  | v :: vs => writeCells d (writeCell d cells a v) (a + 1) vs

/-- The words of a run of `n` addresses from `a` upward. -/
def readCells {w : Nat} (d : BitVec w) (cells : List (Nat × BitVec w)) (a : Nat) : Nat → List (BitVec w)
  | 0 => []
  | n + 1 => readCell d cells a :: readCells d cells (a + 1) n

/-- Every address of the store lies above a bound, rising, and no entry holds the unlisted value. -/
def cellsFrom {w : Nat} (d : BitVec w) : Nat → List (Nat × BitVec w) → Bool
  | _, [] => true
  | lo, (k, v) :: rest => decide (lo ≤ k) && decide (v ≠ d) && cellsFrom d (k + 1) rest

/-- The canonical form of a store. -/
def cellsWf {w : Nat} (d : BitVec w) (cells : List (Nat × BitVec w)) : Bool := cellsFrom d 0 cells

/-- What a DRAM word that nothing has written reads as: zero data with its zero check bits (R137). -/
def dramDefault : Code := 0#39

/-- Both memories are in canonical form. -/
def State.memoryWf (s : State) : Bool := cellsWf dramDefault s.dram.cells && cellsWf erasedWord s.flash.cells

/-! ## Bit fields, bytes, checksum -/

/-- Bits `lo` to `lo + n - 1` of a word, as a number. -/
def bits (w : Word) (lo n : Nat) : Nat := (w.toNat >>> lo) % 2 ^ n

/-- Bit `i` of a word. -/
def bitAt (w : Word) (i : Nat) : Bool := bits w i 1 == 1

/-- A value of `n` bits placed at bit `lo`. -/
def field (lo n v : Nat) : Nat := (v % 2 ^ n) <<< lo

/-- A flag placed at bit `lo`. -/
def flag (lo : Nat) (b : Bool) : Nat := if b then 2 ^ lo else 0

/-- The four bytes of a word, least significant first (R190). -/
def wordBytes (w : Word) : List Byte :=
  [w.extractLsb' 0 8, w.extractLsb' 8 8, w.extractLsb' 16 8, w.extractLsb' 24 8]

/-- The bytes of a run of words. -/
def bytesOf (ws : List Word) : List Byte := ws.flatMap wordBytes

/-- The checksum of R79: each byte subtracted in turn, modulo 65536. -/
def checksum (start : Sum16) (bs : List Byte) : Sum16 := bs.foldl (fun a b => a - b.setWidth 16) start

/-- The byte of `new` where enable bit `k` is set, else the byte of `old` (R111). -/
def mergeByte (old new : Word) (enables : BitVec 4) (k : Nat) : Word :=
  (if enables.getLsbD k then new else old) &&& (0xFF#32 <<< (8 * k))

/-- The enabled bytes of `new` over `old` (R111, R135). -/
def mergeWord (old new : Word) (enables : BitVec 4) : Word :=
  mergeByte old new enables 0 ||| mergeByte old new enables 1 ||| mergeByte old new enables 2 ||| mergeByte old new enables 3

/-- `a` is newer than `b` (00, Conventions: sequence arithmetic). -/
def newer (a b : Seq) : Bool := decide (a ≠ b) && decide ((a - b).toNat < 2 ^ 31)

/-- A count raised by `n` that saturates at `top` (00, Conventions). -/
def saturate (top count n : Nat) : Nat := min top (count + n)

/-! ## Flash contents (R62) -/

/-- Word address of a flash location (R62, in words). -/
def flashAddr (block page word : Nat) : Nat := block * 1024 + page * 64 + word

/-- A run of flash words. -/
def flashWords (cells : List (Nat × Word)) (a n : Nat) : List Word := readCells erasedWord cells a n

/-- The 64 words of a flash page. -/
def flashPage (cells : List (Nat × Word)) (block page : Nat) : List Word := flashWords cells (flashAddr block page 0) 64

/-- A run of words programmed: programming can only clear bits (R62). -/
def programWords (cells : List (Nat × Word)) (a : Nat) : List Word → List (Nat × Word)
  | [] => cells
  | v :: vs => programWords (writeCell erasedWord cells a (readCell erasedWord cells a &&& v)) (a + 1) vs

/-- A run of words left by an interrupted program numbered `n` (R74, R78): each reads FFFFFFFFh or the value being programmed. -/
def tearWords (n : Nat) (cells : List (Nat × Word)) (a : Nat) : List Word → List (Nat × Word)
  | [] => cells
  | v :: vs => tearWords n (writeCell erasedWord cells a (if Config.erasedAt n a then erasedWord else v)) (a + 1) vs

/-- An address lies in a flash block. -/
def inBlock (block a : Nat) : Bool := decide (block * 1024 ≤ a) && decide (a < (block + 1) * 1024)

/-- A block erased: every word reads FFFFFFFFh (R62). -/
def eraseBlock (cells : List (Nat × Word)) (block : Nat) : List (Nat × Word) := cells.filter (fun c => !inBlock block c.1)

/-- A block part-way through the erase numbered `n` (R73, R74, R78): each word reads its former value or FFFFFFFFh. -/
def partEraseBlock (n : Nat) (cells : List (Nat × Word)) (block : Nat) : List (Nat × Word) :=
  cells.filter (fun c => !(inBlock block c.1 && Config.erasedAt n c.1))

/-- The words the device left at another value (log 10), at an offset from `base`. -/
def applyDefects (cells : List (Nat × Word)) (base : Nat) : List Defect → List (Nat × Word)
  | [] => cells
  | d :: ds => applyDefects (writeCell erasedWord cells (base + d.word) d.value) base ds

/-- Every one of the words reads FFFFFFFFh (R62: an erased page). -/
def allErased (ws : List Word) : Bool := ws.all (· == erasedWord)

/-- A block is blank (R62). -/
def blockBlank (cells : List (Nat × Word)) (block : Nat) : Bool :=
  cells.all (fun c => !(inBlock block c.1) || c.2 == erasedWord)

end Sys2Proof.Machine
end

