-- ==== Sys2Proof/Machine/Ecc.lean ====
section
/-! DEFINITION. SEC-DED ECC of the DRAM Controller (R132): check bits, syndrome, classification, correction. -/

namespace Sys2Proof.Machine

/-- The position of each data bit 0..31: the positions 1..38 that are no power of two, in increasing order (R132). -/
def dataPositions : List Nat :=
  [3, 5, 6, 7, 9, 10, 11, 12, 13, 14, 15, 17, 18, 19, 20, 21, 22, 23, 24, 25, 26, 27, 28, 29, 30, 31, 33, 34, 35, 36, 37, 38]

/-- The data bits that check bit c0..c5 covers, as a mask: those whose position has bit i set (R132). -/
def checkMask : Nat → Word
  | 0 => 0x56AAAD5B#32
  | 1 => 0x9B33366D#32
  | 2 => 0xE3C3C78E#32
  | 3 => 0x03FC07F0#32
  | 4 => 0x03FFF800#32
  | _ => 0xFC000000#32

/-- Exclusive-or of the low 64 bits of a number. -/
def parityNat (n : Nat) : Bool :=
  let a := n ^^^ (n >>> 32)
  let b := a ^^^ (a >>> 16)
  let c := b ^^^ (b >>> 8)
  let d := c ^^^ (c >>> 4)
  let e := d ^^^ (d >>> 2)
  let f := e ^^^ (e >>> 1)
  f % 2 == 1

/-- Check bit ci, i in 0..5, of a data word (R132). -/
def checkBit (d : Word) (i : Nat) : Bool := parityNat (d &&& checkMask i).toNat

/-- Check bits c0..c5 as a number, ci at bit i. -/
def lowChecks (d : Word) : Nat :=
  flag 0 (checkBit d 0) + flag 1 (checkBit d 1) + flag 2 (checkBit d 2) +
  flag 3 (checkBit d 3) + flag 4 (checkBit d 4) + flag 5 (checkBit d 5)

/-- The seven check bits of a data word (R132): c6 is the exclusive-or of the data bits and c0..c5. -/
def checkBits (d : Word) : BitVec 7 :=
  BitVec.ofNat 7 (lowChecks d + flag 6 (parityNat (lowChecks d) ^^ parityNat d.toNat))

/-- A data word as stored: the data in bits 0..31, c0..c6 in bits 32..38. -/
def encodeWord (d : Word) : Code := checkBits d ++ d

/-- The data bits of a stored word, uncorrected. -/
def codeData (c : Code) : Word := c.extractLsb' 0 32

/-- The check bits of a stored word. -/
def codeChecks (c : Code) : BitVec 7 := c.extractLsb' 32 7

/-- The 7-bit syndrome of a stored word (R132): bits 0..5 each check bit recomputed, exclusive-or the one read; bit 6 the exclusive-or of all 39 bits. -/
def syndrome (c : Code) : BitVec 7 :=
  BitVec.ofNat 7 ((lowChecks (codeData c) ^^^ ((codeChecks c).toNat % 64)) + flag 6 (parityNat c.toNat))

/-- How a word reads (R132). -/
inductive EccResult where
  /-- syndrome 0: the word as read -/
  | clean (word : Word)
  /-- one flipped bit restored -/
  | corrected (word : Word)
  /-- no usable value; the syndrome is kept for the DRAM-FAULT record (R136) -/
  | uncorrectable (syndrome : BitVec 7)
deriving DecidableEq, Repr

/-- The data bit at a position, if a data bit lies there (R132). -/
def dataBitAt (pos : Nat) : Option Nat :=
  if pos ∈ dataPositions then some (dataPositions.findIdx (· == pos)) else none

/-- The data word with the bit at a position restored; a check bit leaves the data as read. -/
def restoreAt (d : Word) (pos : Nat) : Word :=
  match dataBitAt pos with
  | some i => d ^^^ (1#32 <<< i)
  | none => d

/-- The classification of R132. -/
def readCode (c : Code) : EccResult :=
  let s := syndrome c
  let pos := s.toNat % 64
  if s = 0#7 then .clean (codeData c)
  else if s.getLsbD 6 && decide (pos ≤ 38) then .corrected (restoreAt (codeData c) pos)
  else .uncorrectable s

/-- The value of a word that reads Clean or Corrected. An uncorrectable word has none: callers refuse before they use it. -/
def EccResult.word : EccResult → Word
  | .clean w => w
  | .corrected w => w
  | .uncorrectable _ => 0#32

/-- The word read is Uncorrectable. -/
def EccResult.bad : EccResult → Bool
  | .uncorrectable _ => true
  | _ => false

/-- A run of DRAM words read: each with its word offset and its classification. -/
def readDram (cells : List (Nat × Code)) (off n : Nat) : List (Nat × EccResult) :=
  (List.range n).map (fun i => (off + i, readCode (readCell dramDefault cells (off + i))))

/-- A run of data words written with fresh check bits (R132). -/
def writeDram (cells : List (Nat × Code)) (off : Nat) (ws : List Word) : List (Nat × Code) :=
  writeCells dramDefault cells off (ws.map encodeWord)

/-- Some word of a read is Uncorrectable. -/
def anyBad (rs : List (Nat × EccResult)) : Bool := rs.any (·.2.bad)

/-- The data words of a read. -/
def dataOf (rs : List (Nat × EccResult)) : List Word := rs.map (·.2.word)

end Sys2Proof.Machine
end

