-- ==== Sys2Proof/Machine/Layouts.lean ====
section
/-! DEFINITION. Record, slot and page layouts (R5, R27, R190 to R194), their checks, and what a reader takes from them (R43, R185, R188). -/

namespace Sys2Proof.Machine

/-! ## The opening word (R192) -/

/-- Kind, bits 0..7. -/
def kindOf (w : Word) : Byte := w.extractLsb' 0 8
/-- Length n, bits 8..11. -/
def lengthOf (w : Word) : Nat := bits w 8 4
/-- Urgent, bit 12. -/
def urgentOf (w : Word) : Bool := bitAt w 12

/-- Origin code (R192). -/
def Origin.code : Origin → Nat
  | .svp => 1
  | .mnp => 2
  | .part => 3

/-- The origin of a port's record (R12). -/
def Origin.ofPort : Port → Origin
  | .svp => .svp
  | .mnp => .mnp

/-- The stored opening word (R5, R192). -/
def openingOf (r : Record) : Word :=
  BitVec.ofNat 32 (r.kind.toNat + field 8 4 r.payload.length + flag 12 r.urgent + field 13 2 r.origin.code
    + flag 16 r.stamp.unset + flag 17 r.stamp.coarse + flag 18 r.stamp.tset)

/-! ## The stored slot (R27, R193) -/

/-- The bytes the record check covers: words 0..2, the time-high half of word 3, the payload (R27). -/
def checkedBytes (w0 w1 w2 w3 : Word) (payload : List Word) : List Byte :=
  wordBytes w0 ++ wordBytes w1 ++ wordBytes w2 ++ (wordBytes w3).take 2 ++ bytesOf payload

/-- A record packed: words 0..(3 + n) of its slot (R193). -/
def packRecord (r : Record) (seq : Seq) : List Word :=
  let w0 := openingOf r
  let w2 : Word := r.stamp.time.setWidth 32
  let hi : Nat := r.stamp.time.toNat >>> 32
  let check := checksum 0#16 (checkedBytes w0 seq w2 (BitVec.ofNat 32 hi) r.payload)
  [w0, seq, w2, BitVec.ofNat 32 (hi + field 16 16 check.toNat)] ++ r.payload

/-- A ring slot: the packed record and zero words up to 16 (R27). -/
def slotWords (r : Record) (seq : Seq) : List Word :=
  let ws := packRecord r seq
  ws ++ List.replicate (16 - ws.length) 0#32

/-- Word `i` of a list of words. -/
def wordAt (ws : List Word) (i : Nat) : Word := ws.getD i 0#32

/-- The record check of a slot or packed record matches (R27): over the length that word 0 gives. -/
def recordCheckOk (ws : List Word) : Bool :=
  checksum 0#16 (checkedBytes (wordAt ws 0) (wordAt ws 1) (wordAt ws 2) (wordAt ws 3) ((ws.drop 4).take (lengthOf (wordAt ws 0))))
    == (wordAt ws 3).extractLsb' 16 16

/-- Kinds that R43 judges damaged: 00h, FFh, EFh, FBh, FCh..FEh. -/
def damagedKind (k : Byte) : Bool :=
  k == 0x00#8 || k == 0xFF#8 || k == 0xEF#8 || k == 0xFB#8 || k == 0xFC#8 || k == 0xFD#8 || k == 0xFE#8

/-- A slot read for the candidate of sequence `s` is damaged (R43). -/
def slotDamaged (rs : List (Nat × EccResult)) (s : Seq) : Bool :=
  let ws := dataOf rs
  anyBad rs || wordAt ws 1 != s || damagedKind (kindOf (wordAt ws 0)) || decide (12 < lengthOf (wordAt ws 0)) || !recordCheckOk ws

/-- Kinds that recovery accepts: 01h..EEh, F0h..FAh (R188). -/
def recoverableKind (k : Byte) : Bool :=
  (decide (1 ≤ k.toNat) && decide (k.toNat ≤ 0xEE)) || (decide (0xF0 ≤ k.toNat) && decide (k.toNat ≤ 0xFA))

/-- A slot read in recovery at sequence `s` is accepted (R188). -/
def slotAccepted (rs : List (Nat × EccResult)) (s : Seq) : Bool :=
  let ws := dataOf rs
  !anyBad rs && wordAt ws 1 == s && recoverableKind (kindOf (wordAt ws 0)) && decide (lengthOf (wordAt ws 0) ≤ 12) && recordCheckOk ws

/-- The candidate an intact slot gives (R43). -/
def placedOf (c : ClassId) (s : Seq) (ws : List Word) : Placed :=
  { cls := c, seq := s, urgent := urgentOf (wordAt ws 0), words := ws.take (4 + lengthOf (wordAt ws 0)) }

/-- The DAMAGED stand-in (R43, R4): kind FBh, n = 1, the raw opening word as its payload. -/
def standIn (c : ClassId) (s : Seq) (stamp : Stamp) (raw : Word) : Placed :=
  { cls := c, seq := s, urgent := false
    words := packRecord { kind := 0xFB#8, urgent := false, origin := .part, stamp := stamp, payload := [raw] } s }

/-- Record length n of a packed record. -/
def Placed.n (p : Placed) : Nat := p.words.length - 4

/-- Record size in bytes for DWRR: 16 + 4n (R42). -/
def Placed.size (p : Placed) : Nat := 16 + 4 * p.n

/-- Words already placed in a buffer. -/
def placedWords (rs : List Placed) : Nat := (rs.map (·.words.length)).sum

/-- A candidate fits: the words placed plus its 4 + n do not exceed 58 (R44). -/
def fits (rs : List Placed) (p : Placed) : Bool := decide (placedWords rs + p.words.length ≤ 58)

/-! ## The journal page (R46, R194) -/

/-- Close cause code (R194). -/
def CloseCause.code : CloseCause → Nat
  | .fit => 0
  | .urgent => 1
  | .deadline => 2
  | .drain => 3

/-- The present mask as bits 0..3. -/
def maskBits (m : Four Bool) : Nat := flag 0 m.c0 + flag 1 m.c1 + flag 2 m.c2 + flag 3 m.c3

/-- Header word 5 without the page check (R194); the close cause of a retry is the buffer's own (log 42). -/
def headerFlags (b : ClosedBuf) (retry : Bool) : Nat :=
  field 0 4 b.recs.length + field 4 4 (maskBits b.mask) + field 8 2 b.cause.code + flag 10 retry

/-- The packed records of a page in placement order. -/
def pageRecords (b : ClosedBuf) : List Word := b.recs.flatMap (·.words)

/-- The page check over header words 0..4, the two non-check bytes of word 5 and the records (R48). -/
def pageCheck (header : List Word) (w5 : Word) (records : List Word) : Sum16 :=
  checksum 0#16 (bytesOf header ++ (wordBytes w5).take 2 ++ bytesOf records)

/-- The 64 words of an IN-FLIGHT page (R48, R194): unused words read FFFFFFFFh. -/
def pageWords (f : InFlight) : List Word :=
  let header := f.pageSeq :: f.buf.placed.toList
  let low := headerFlags f.buf f.retry
  let records := pageRecords f.buf
  let w5 := BitVec.ofNat 32 (low + field 16 16 (pageCheck header (BitVec.ofNat 32 low) records).toNat)
  let ws := header ++ [w5] ++ records
  ws ++ List.replicate (64 - ws.length) erasedWord

/-- Where `count` records, walked from word `i` by the length in each opening word, end; none when a length exceeds 12 or
they run past word 63 (R185). -/
def walkRecords (ws : List Word) : Nat → Nat → Option Nat
  | 0, i => if i ≤ 64 then some i else none
  | count + 1, i =>
    if i < 64 ∧ lengthOf (wordAt ws i) ≤ 12 then walkRecords ws count (i + 4 + lengthOf (wordAt ws i)) else none

/-- The header mount takes from a page. -/
def headerOf (ws : List Word) : PageHeader :=
  { seq := wordAt ws 0
    placed := ⟨wordAt ws 1, wordAt ws 2, wordAt ws 3, wordAt ws 4⟩
    mask := ⟨bitAt (wordAt ws 5) 4, bitAt (wordAt ws 5) 5, bitAt (wordAt ws 5) 6, bitAt (wordAt ws 5) 7⟩ }

/-- A page is valid (R185). -/
def pageValid (ws : List Word) : Bool :=
  let count := bits (wordAt ws 5) 0 4
  if 1 ≤ count ∧ count ≤ 14 then
    match walkRecords ws count 6 with
    | some stop => pageCheck (ws.take 5) (wordAt ws 5) ((ws.drop 6).take (stop - 6)) == (wordAt ws 5).extractLsb' 16 16
    | none => false
  else false

/-- The class of a page (R185, R186). One whose word 0 reads FFFFFFFFh while another word does not is neither erased nor valid, whatever
else it holds (R191; log 38). -/
def classifyPage (ws : List Word) : PageClass :=
  if allErased ws then .erased
  else if wordAt ws 0 ≠ erasedWord ∧ pageValid ws = true then .valid (headerOf ws)
  else .neither

end Sys2Proof.Machine
end

