-- ==== Sys2Proof/Machine/ProfileBlock.lean ====
section
/-! DEFINITION. Validation of a profile image (R2, R112, R113, R123, R181, R195): `parseProfile` answers the profile when every check holds. -/

namespace Sys2Proof.Machine

/-! ## Codes (R195) -/

/-- Banks code. -/
def banksOf (c : Nat) : Option Nat := if c = 0 then some 4 else if c = 1 then some 8 else none
/-- Rows code. -/
def rowsOf (c : Nat) : Option Nat := if c = 0 then some 4096 else if c = 1 then some 8192 else if c = 2 then some 16384 else none
/-- Columns code. -/
def colsOf (c : Nat) : Option Nat := if c = 0 then some 512 else if c = 1 then some 1024 else if c = 2 then some 2048 else none
/-- Commit algorithm code. -/
def algOf (c : Nat) : Option CommitAlg := if c = 0 then some .sp else if c = 1 then some .wrr else if c = 2 then some .dwrr else none
/-- Edge mode code. -/
def edgeOf (c : Nat) : EdgeMode := if c = 0 then .off else if c = 1 then .rise else if c = 2 then .fall else .both
/-- Window kind code. -/
def winKindOf (c : Nat) : Option WinKind :=
  if c = 0 then some .plainRw else if c = 1 then some .plainRo else if c = 2 then some .journal else if c = 3 then some .image
  else if c = 4 then some .flashRead else if c = 5 then some .mirror else none

/-! ## The zero rule (R190): the bits of each profile word that belong to a field -/

/-- Field bits of profile word `i`, 0..127 (R195). Any other bit must read 0 (R190). -/
def profileMask (i : Nat) : Nat :=
  if i = 0 ∨ i = 9 ∨ i = 10 then 0xFFFFFFFF
  else if i = 1 ∨ i = 2 ∨ i = 8 then 0xFFFF
  else if i = 3 then 0x313F
  else if i = 4 ∨ i = 6 then 0xFFFFFF
  else if i = 5 then 0xFFFF7FFF
  else if i = 7 then 0xFFF
  else if i = 11 ∨ i = 12 then 0x07FF07FF
  else if i = 13 then 0x1FFFFF0F
  else if 16 ≤ i ∧ i < 28 then (if (i - 16) % 3 = 0 then 0x1FFFF7 else if (i - 16) % 3 = 1 then 0xFFFFFFFF else 0x1FFF)
  else if 32 ≤ i ∧ i < 80 then (if (i - 32) % 4 = 0 then 0x77 else 0xFFFFFFFF)
  else 0

/-- A word has no bit set outside a mask. -/
def zeroOutside (w : Word) (mask : Nat) : Bool := w &&& ~~~(BitVec.ofNat 32 mask) == 0#32

/-- The zero rule over words 0..127. -/
def zeroRule (ws : List Word) : Bool := (List.range 128).all (fun i => zeroOutside (wordAt ws i) (profileMask i))

/-- The profile check (R195): the checksum of words 0..127 less the two bytes of the check. -/
def profileSum (ws : List Word) : Sum16 :=
  checksum 0#16 (bytesOf (ws.take 2) ++ (wordBytes (wordAt ws 2)).drop 2 ++ bytesOf ((ws.drop 3).take 125))

/-! ## Fields -/

/-- A contact input's settings from its half-word (R195). -/
def contactOf (h : Nat) : ContactCfg :=
  { mode := edgeOf (h / 256 % 4), debounce := h % 256, wake := h / 1024 % 2 == 1 }

/-- The lock fields of profile word 13 (R195). -/
def lockOf (w : Word) : LockVals :=
  { imageProgram := bitAt w 0, imageErase := bitAt w 1, bootRewrite := bitAt w 2, journalRetain := bitAt w 3
    shieldS := bits w 8 8, shieldE := bits w 16 8, bootEnd := bits w 24 5 }

/-- The lock values laid out as profile word 13 (R195, R196 word 2). -/
def lockWord (l : LockVals) : Word :=
  BitVec.ofNat 32 (flag 0 l.imageProgram + flag 1 l.imageErase + flag 2 l.bootRewrite + flag 3 l.journalRetain
    + field 8 8 l.shieldS + field 16 8 l.shieldE + field 24 5 l.bootEnd)

/-- The parameters of class `c` (R195). -/
def classOf (ws : List Word) (c : Nat) : ClassParams :=
  let w := wordAt ws (16 + 3 * c)
  { configured := bitAt w 0, svp := bitAt w 1, mnp := bitAt w 2, weight := bits w 4 4, capacity := bits w 8 13
    base := (wordAt ws (17 + 3 * c)).toNat, quantum := bits (wordAt ws (18 + 3 * c)) 0 13 }

/-- Window entry `i` (R195); none for a valid entry with a kind code that is not listed. -/
def windowOf (ws : List Word) (i : Nat) : Option Window :=
  let w := wordAt ws (32 + 4 * i)
  let make (k : WinKind) : Window :=
    { valid := bitAt w 0, svp := bitAt w 1, mnp := bitAt w 2, kind := k
      base := (wordAt ws (33 + 4 * i)).toNat, size := (wordAt ws (34 + 4 * i)).toNat, target := (wordAt ws (35 + 4 * i)).toNat }
  if bitAt w 0 then (winKindOf (bits w 4 3)).map make else some (make .plainRw)

/-- Every window entry, if each has a listed kind. -/
def windowsOf (ws : List Word) : Option (List Window) := (List.range 12).mapM (windowOf ws)

/-! ## Ranges and overlaps -/

/-- DRAM geometry in bytes (R112). -/
def geometryBytes (p : Profile) : Nat := p.banks * p.rows * p.cols * 4

/-- Two half-open ranges (start, length) share an address. -/
def overlap (a b : Nat × Nat) : Bool := decide (a.1 < b.1 + b.2) && decide (b.1 < a.1 + a.2)

/-- No two ranges of a list overlap. -/
def disjoint : List (Nat × Nat) → Bool
  | [] => true
  | r :: rs => rs.all (fun x => !overlap r x) && disjoint rs

/-- Powers of two from 32 to 4096 (R1). -/
def ringCapacities : List Nat := [32, 64, 128, 256, 512, 1024, 2048, 4096]

/-- The DRAM ring of a class: base and length in bytes. -/
def ClassParams.ring (c : ClassParams) : Nat × Nat := (c.base, c.capacity * 64)

/-- The rings of the configured classes. -/
def ringsOf (p : Profile) : List (Nat × Nat) := (p.classes.toList.filter (·.configured)).map (·.ring)

/-- The shadow area (R80). -/
def shadowRange (p : Profile) : Nat × Nat := (p.shadowBase, 8 * 4096)

/-- The mirror (R173). -/
def mirrorRange (p : Profile) : Nat × Nat := (p.mirrorOffset, 256)

/-- A configured class's parameters are in range (R1, R2). -/
def classOk (p : Profile) (c : ClassParams) : Bool :=
  !c.configured ||
  (decide (c.capacity ∈ ringCapacities) && decide (1 ≤ c.weight) && decide (c.weight ≤ 15)
    && decide (64 ≤ c.quantum) && decide (c.quantum ≤ 4096)
    && decide (c.base % 64 = 0) && decide (c.base + c.capacity * 64 ≤ geometryBytes p))

/-- The lock fields are in range (R99). -/
def lockOk (l : LockVals) : Bool :=
  decide (1 ≤ l.shieldS) && decide (l.shieldS ≤ l.shieldE) && decide (l.shieldE ≤ 255) && decide (l.bootEnd ≤ 31)

/-- The class a JOURNAL window targets (R112). -/
def journalClass (w : Window) : ClassId := Fin.ofNat 4 w.target

/-- A valid window entry obeys R112, and R113 and R2 where they concern one window. -/
def windowOk (p : Profile) (w : Window) : Bool :=
  !w.valid ||
  (decide (w.base % 64 = 0) && decide (w.size % 64 = 0) && decide (64 ≤ w.size) && decide (w.base + w.size ≤ 2 ^ 32)
    && match w.kind with
      | .plainRw => decide (w.target % 64 = 0) && decide (w.target + w.size ≤ geometryBytes p)
          && (ringsOf p ++ [shadowRange p, mirrorRange p]).all (fun r => !overlap (w.target, w.size) r)
      | .plainRo => decide (w.target % 64 = 0) && decide (w.target + w.size ≤ geometryBytes p)
      | .journal => decide (w.target ≤ 3) && decide (w.size = 64) && (p.classes.get (journalClass w)).configured
      | .image => decide (w.target ≤ 255) && decide (w.size % 4096 = 0) && decide (w.target + w.size / 4096 ≤ 256)
      | .flashRead => decide (256 ≤ w.target) && decide (w.target ≤ 2047) && decide (w.target * 4096 + w.size ≤ 2048 * 4096)
      | .mirror => decide (w.target = p.mirrorOffset) && decide (w.size = 256))

/-- The ranges of the valid windows in processor space. -/
def windowRanges (ws : List Window) : List (Nat × Nat) := (ws.filter (·.valid)).map (fun w => (w.base, w.size))

/-- The ranges and rules of R181 over a profile's fields. -/
def profileOk (p : Profile) : Bool :=
  Source.order.all (fun r => decide (1 ≤ p.weights.get r) && decide (p.weights.get r ≤ 15))
  && decide (10 ≤ p.refreshPeriod) && decide (p.refreshPeriod ≤ 255)
  && decide (2 ≤ p.urgentThreshold) && decide (p.urgentThreshold ≤ 8)
  && decide (1 ≤ p.spareTarget) && decide (p.spareTarget ≤ 4)
  && decide (p.assemblyLimit ≤ 255) && decide (1 ≤ p.relapseInterval) && decide (p.relapseInterval ≤ 255)
  && decide (10 ≤ p.flushDeadline) && decide (p.flushDeadline ≤ 60000)
  && decide (1 ≤ p.imageIdle) && decide (p.imageIdle ≤ 255)
  && decide (p.quietInterval ≤ 3600) && decide (p.wakeInterval ≤ 65535)
  && lockOk p.lock
  && p.classes.c0.configured && p.classes.toList.all (classOk p)
  && decide (p.shadowBase % 4096 = 0) && decide (p.mirrorOffset % 256 = 0)
  && decide (p.shadowBase + 8 * 4096 ≤ geometryBytes p) && decide (p.mirrorOffset + 256 ≤ geometryBytes p)
  && disjoint (ringsOf p ++ [shadowRange p, mirrorRange p])
  && p.windows.all (windowOk p) && disjoint (windowRanges p.windows)

/-- The profile whose words are given, before its ranges are judged; none for a code that R195 does not list. -/
def profileFields (ws : List Word) : Option Profile :=
  match banksOf (bits (wordAt ws 3) 0 2), rowsOf (bits (wordAt ws 3) 2 2), colsOf (bits (wordAt ws 3) 4 2),
    algOf (bits (wordAt ws 3) 12 2), windowsOf ws with
  | some banks, some rows, some cols, some alg, some windows =>
    some
      { banks := banks, rows := rows, cols := cols
        policy := if bitAt (wordAt ws 3) 8 then .wsp else .sp
        alg := alg
        weights := ⟨bits (wordAt ws 4) 0 4, bits (wordAt ws 4) 4 4, bits (wordAt ws 4) 8 4,
          bits (wordAt ws 4) 12 4, bits (wordAt ws 4) 16 4, bits (wordAt ws 4) 20 4⟩
        refreshPeriod := bits (wordAt ws 5) 0 8, urgentThreshold := bits (wordAt ws 5) 8 4
        spareTarget := bits (wordAt ws 5) 12 3, assemblyLimit := bits (wordAt ws 5) 16 8
        relapseInterval := bits (wordAt ws 5) 24 8
        flushDeadline := bits (wordAt ws 6) 0 16, imageIdle := bits (wordAt ws 6) 16 8
        quietInterval := bits (wordAt ws 7) 0 12, wakeInterval := bits (wordAt ws 8) 0 16
        shadowBase := (wordAt ws 9).toNat, mirrorOffset := (wordAt ws 10).toNat
        contacts := ⟨contactOf (bits (wordAt ws 11) 0 16), contactOf (bits (wordAt ws 11) 16 16),
          contactOf (bits (wordAt ws 12) 0 16), contactOf (bits (wordAt ws 12) 16 16)⟩
        lock := lockOf (wordAt ws 13)
        classes := Four.build (fun c => classOf ws c.val)
        windows := windows }
  | _, _, _, _, _ => none

/-- The image's magic, format version, check and zero bits are as R181, R190 and R195 ask. -/
def imageFormOk (ws : List Word) : Bool :=
  wordAt ws 0 == 0x7A3C5E01#32 && bits (wordAt ws 1) 0 16 == 1
  && (wordAt ws 2).extractLsb' 0 16 == profileSum ws && zeroRule ws

/-- The valid profile that words 0..127 of an image hold, or none (R181). -/
def parseProfile (ws : List Word) : Option Profile :=
  if imageFormOk ws then
    match profileFields ws with
    | some p => if profileOk p then some p else none
    | none => none
  else none

/-- The one-way check of R88: the new lock fields set every forbid the store has set, narrow the shield window or keep it,
and do not lower the boot cluster end. -/
def oneWay (store new : LockVals) : Bool :=
  (!store.imageProgram || new.imageProgram) && (!store.imageErase || new.imageErase)
  && (!store.bootRewrite || new.bootRewrite) && (!store.journalRetain || new.journalRetain)
  && decide (store.shieldS ≤ new.shieldS) && decide (new.shieldE ≤ store.shieldE) && decide (store.bootEnd ≤ new.bootEnd)

end Sys2Proof.Machine
end

