-- ==== Sys2Proof/Machine/Flags.lean ====
section
/-! DEFINITION. Flags of the part: the mirror's dirty flag, attention causes (R173, R176, R177), the stamp of a part record (R18), and the mirror's picture (R196). -/

namespace Sys2Proof.Machine

/-- A shown value changed: dirty is set (R173). -/
def State.mark (s : State) : State := { s with mir.dirty := true }

/-- Dirty is set where a shown value has changed (R173). -/
def State.markIf (changed : Bool) (s : State) : State := { s with mir.dirty := s.mir.dirty || changed }

/-- Place of a cause in mirror word 49 (R196). -/
def Cause.ix : Cause → Fin 8
  | .start => 0
  | .profile => 1
  | .full => 2
  | .burn => 3
  | .fault => 4
  | .lost => 5
  | .quiet => 6
  | .power => 7

/-- A cause raised: it is in the set as waiting, whatever it was, and dirty is set (R176). -/
def State.raise (c : Cause) (s : State) : State :=
  { s with mir.attention := s.mir.attention.set c.ix .waiting, mir.dirty := true }

/-- The cause is in the attention set. -/
def AttState.present (a : AttState) : Bool := a != .absent

/-- ATTN is asserted while the set is not empty (R176). -/
def State.attn (s : State) : Bool := s.mir.attention.toList.any AttState.present

/-- SVRST is asserted during the pulse (R172). -/
def State.svrst (s : State) : Bool := s.quiet.pulse.isSome

/-- The stamp of a part record made now (R18). -/
def State.stamp (s : State) : Stamp :=
  { time := s.pow.time, unset := s.pow.unset, coarse := s.pow.coarse, tset := false }

/-- A waiting cause is recorded at the generation of a write that starts (R174, R176). -/
def AttState.record (gen : Seq) : AttState → AttState
  | .waiting => .recorded gen
  | a => a

/-- A cause that an acknowledge of the last completed generation removes (R177): recorded, and not at the generation of a
write now in progress. -/
def AttState.acked (inProgress : Option Seq) : AttState → Bool
  | .recorded g => inProgress != some g
  | _ => false

/-- The generation of the write in progress, if any (R174). -/
def Mirror.inProgress (m : Mirror) : Option Seq := if m.write.isSome then some m.gen else none

/-- The acknowledge word has been carried into DRAM with value `g` (R177). -/
def State.acknowledge (g : Word) (s : State) : State :=
  if s.mir.last = some g then
    let hit (a : AttState) : Bool := a.acked s.mir.inProgress
    let s' := { s with mir.attention := s.mir.attention.map (fun a => if hit a then .absent else a) }
    if s.mir.attention.toList.any hit then s'.mark else s'
  else s

/-! ## The picture (R173, R196) -/

/-- Power state code (R196). -/
def PowerState.code : PowerState → Nat
  | .starting => 1
  | .run => 2
  | .settling => 3
  | .doze => 4
  | .roused => 5
  | .pfDrain => 6
  | .pfHalt => 7

/-- Profile state code (R196). -/
def ProfileState.code : ProfileState → Nat
  | .loaded => 1
  | .safe => 2
  | .pending => 3

/-- A journal block's successor in ring order (R47). -/
def ringNext (b : Nat) : Nat := if b = 2047 then 256 else b + 1

/-- The first block after `b` in ring order that passes a test, looking at no more than `fuel` blocks. -/
def ringFind (p : Nat → Bool) : Nat → Nat → Nat
  | 0, b => b
  | fuel + 1, b => if p (ringNext b) then ringNext b else ringFind p fuel (ringNext b)

/-- The `n`-th block after `b` in ring order, counting the blocks not on the skip list. -/
def ringSkip (skip : List Nat) : Nat → Nat → Nat
  | 0, b => b
  | n + 1, b => ringSkip skip n (ringFind (fun x => !skip.contains x) 1792 b)

/-- The tail (R55): the first block after the erased-ahead run that is not on the skip list and is not the head block. -/
def Commit.tail (c : Commit) : Nat :=
  ringFind (fun x => !c.skip.contains x && x != c.headBlock) 1792 (ringSkip c.skip c.ahead c.headBlock)

/-- The tracked level the mirror shows: 0 for an input in OFF mode (R166). -/
def State.shownLevel (s : State) (i : ClassId) : Bool :=
  (s.prof.contacts.get i).mode != .off && s.con.tracked.get i

/-- The three words of class `c` (R196): 0 throughout for a class that is not configured (R173). -/
def State.classWords (s : State) (c : ClassId) : List Word :=
  let r := s.stg.rings.get c
  if (s.prof.classes.get c).configured then
    [r.next, r.committed, BitVec.ofNat 32 (field 0 13 r.staged + field 16 13 r.reserved + flag 31 r.present)]
  else [0#32, 0#32, 0#32]

/-- The last-staged words of a port's contexts, 0 for none (log 36). -/
def lastWords (f : Four (Option Seq)) : List Word := f.toList.map (·.getD 0#32)

/-- Bits of four options present, from bit `lo`. -/
def presentBits (lo : Nat) (f : Four (Option Seq)) : Nat :=
  flag lo f.c0.isSome + flag (lo + 1) f.c1.isSome + flag (lo + 2) f.c2.isSome + flag (lo + 3) f.c3.isSome

/-- The tracked levels the mirror shows. -/
def State.shownLevels (s : State) : Four Bool := Four.build s.shownLevel

/-- The words of the four classes. -/
def State.shownClasses (s : State) : List Word := s.classWords 0 ++ s.classWords 1 ++ s.classWords 2 ++ s.classWords 3

/-- The two words of burn result `j`, code 0 for no entry (R196), and then 0 throughout (log 36). -/
def resultWords (rs : List BurnResult) (j : Nat) : List Word :=
  match rs[j]? with
  | some r => [BitVec.ofNat 32 (field 0 8 r.block + field 8 4 r.code), BitVec.ofNat 32 r.sum.toNat]
  | none => [0#32, 0#32]

/-- Words 0..61 of the mirror and a filler for word 62, which the part never writes, then word 63 (R196). Word 28 is 0 while
the oldest retained page sequence is unknown (log 36). -/
def State.mirrorWords (s : State) : List Word :=
  [ s.mir.gen,
    BitVec.ofNat 32 (field 0 8 s.pow.state.code + field 8 4 s.su.cause + field 12 4 s.su.profState.code
      + field 16 4 s.su.release + flag 24 s.com.full + flag 25 s.pow.unset),
    lockWord s.lock,
    s.pow.time.setWidth 32,
    BitVec.ofNat 32 (s.pow.time.toNat >>> 32) ]
  ++ s.shownClasses
  ++ lastWords s.stg.last.svp ++ lastWords s.stg.last.mnp
  ++ [ BitVec.ofNat 32 (presentBits 0 s.stg.last.svp + presentBits 4 s.stg.last.mnp
        + field 8 4 s.stg.outbox.length + field 16 16 s.stg.lost),
      BitVec.ofNat 32 (field 0 16 s.com.headBlock + field 16 5 s.com.headPage),
      BitVec.ofNat 32 (field 0 16 s.com.tail + field 16 5 s.com.skip.length),
      s.com.oldest.getD 0#32,
      BitVec.ofNat 32 (field 0 16 s.com.ahead + flag 16 s.com.oldest.isNone) ]
  ++ (List.range 8).flatMap (resultWords s.img.results)
  ++ [ BitVec.ofNat 32 (field 0 16 s.dram.corrected + field 16 16 s.dram.uncorrectable),
      BitVec.ofNat 32 (field 0 16 s.dram.lostRefresh + flag 16 (s.shownLevel 0) + flag 17 (s.shownLevel 1)
        + flag 18 (s.shownLevel 2) + flag 19 (s.shownLevel 3)),
      BitVec.ofNat 32 (field 0 16 s.quiet.count),
      BitVec.ofNat 32 ((List.range 8).map (fun i => flag i (s.mir.attention.get (Fin.ofNat 8 i)).present)).sum ]
  ++ s.mir.attention.toList.map (fun a => match a with | .recorded g => g | _ => 0#32)
  ++ [0#32, 0#32, 0#32, 0#32, 0#32, s.mir.gen]

end Sys2Proof.Machine
end

