-- ==== Sys2Proof/Machine/Outbox.lean ====
section
/-! DEFINITION. Ring counts, reservations and the outbox (R20 to R36): the operations by which every block offers a part record. -/

namespace Sys2Proof.Machine

/-! ## Ring counts (R20, R22, R23) -/

/-- The first uncommitted sequence (R20). -/
def ClassRing.firstUncommitted (r : ClassRing) : Seq := if r.present then r.committed + 1#32 else 0#32

/-- The unclaimed count of a class (R20). -/
def State.unclaimed (s : State) (c : ClassId) : Nat :=
  (s.prof.classes.get c).capacity - (s.stg.rings.get c).staged - (s.stg.rings.get c).reserved

/-- One ring's state replaced; the mirror shows it, so dirty is set (R20). -/
def State.setRing (c : ClassId) (r : ClassRing) (s : State) : State :=
  { s with stg.rings := s.stg.rings.set c r, mir.dirty := true }

/-- A reservation granted (R22). -/
def State.reserve (c : ClassId) (s : State) : State :=
  s.setRing c { s.stg.rings.get c with reserved := (s.stg.rings.get c).reserved + 1 }

/-- A reservation released (R23). -/
def State.release (c : ClassId) (s : State) : State :=
  s.setRing c { s.stg.rings.get c with reserved := (s.stg.rings.get c).reserved - 1 }

/-- Unclaimed slots a port opening needs: five in class 0, which keeps four for the part, one in the others (R22). -/
def openingNeeds (c : ClassId) : Nat := if c = 0 then 5 else 1

/-! ## The outbox (R31 to R34) -/

/-- A part record offered to the outbox: it joins the tail, or with eight waiting it is discarded into the LOST count and
the LOST cause is raised (R31, R34). -/
def State.offer (r : Record) (s : State) : State :=
  if s.stg.outbox.length < 8 then { s with stg.outbox := s.stg.outbox ++ [r], mir.dirty := true }
  else ({ s with stg.lost := saturate 65535 s.stg.lost 1 } : State).raise .lost

/-- A part record of class 0 with origin PART and the given stamp (R4). -/
def partRecord (kind : Byte) (urgent : Bool) (stamp : Stamp) (payload : List Word) : Record :=
  { kind := kind, urgent := urgent, origin := .part, stamp := stamp, payload := payload }

/-- A part record of an event that happens now (R18). -/
def State.offerNow (kind : Byte) (urgent : Bool) (payload : List Word) (s : State) : State :=
  s.offer (partRecord kind urgent s.stamp payload)

/-- A payload word holding a number. -/
def numWord (n : Nat) : Word := BitVec.ofNat 32 n

/-- DRAM-FAULT (R4, R136): byte offset, requester code, syndrome. -/
def State.offerDramFault (off requester : Nat) (syn : BitVec 7) (s : State) : State :=
  s.offerNow 0xF2#8 false [numWord (off * 4), numWord requester, numWord syn.toNat]

/-- JOURNAL-EVENT (R4). -/
def State.offerJournalEvent (event block page : Nat) (s : State) : State :=
  s.offerNow 0xF9#8 false [numWord event, numWord block, numWord page]

/-- DOZE (R4, R156, R157, R159): direction 1 entering or 2 leaving, wake cause. Urgent. -/
def State.offerDoze (direction cause : Nat) (s : State) : State :=
  s.offerNow 0xF5#8 true [numWord direction, numWord cause]

/-- A REFRESH-LOST record. -/
def Record.isRefreshLost (r : Record) : Bool := r.kind == 0xF8#8

/-- The count of a REFRESH-LOST record raised by 1, saturating at 65535 (R33). -/
def Record.addLoss (r : Record) : Record :=
  { r with payload := [numWord (saturate 65535 (wordAt r.payload 0).toNat 1)] }

/-- The first REFRESH-LOST record of the outbox takes one more loss (R33). -/
def mergeLoss : List Record → List Record
  | [] => []
  | r :: rs => if r.isRefreshLost then r.addLoss :: rs else r :: mergeLoss rs

/-- A lost refresh event (R33): merged into a waiting record even when the outbox is full, else offered with a count of 1. -/
def State.offerRefreshLost (s : State) : State :=
  if s.stg.outbox.any Record.isRefreshLost then { s with stg.outbox := mergeLoss s.stg.outbox }
  else s.offerNow 0xF8#8 false [numWord 1]

/-- After a departure with the LOST count above 0 a LOST record takes the freed place, and the count returns to 0 (R34). -/
def State.lostRecord (s : State) : State :=
  if 0 < s.stg.lost then
    { s with
      stg.outbox := s.stg.outbox ++ [partRecord 0xFA#8 false s.stamp [numWord s.stg.lost]]
      stg.lost := 0
      mir.dirty := true }
  else s

/-- The START record enters the outbox at its front; a ninth record is discarded from the tail under R34 (R36). -/
def State.offerFront (r : Record) (s : State) : State :=
  if s.stg.outbox.length < 8 then { s with stg.outbox := r :: s.stg.outbox, mir.dirty := true }
  else ({ s with stg.outbox := r :: s.stg.outbox.take 7, stg.lost := saturate 65535 s.stg.lost 1 } : State).raise .lost

end Sys2Proof.Machine
end

