-- ==== Sys2Proof/Machine/Time.lean ====
section
/-! DEFINITION. The passing of time, in milliseconds (log 3): the time base (R17) and every timer of a millisecond and above. -/

namespace Sys2Proof.Machine

/-- The main clock runs: every power state but DOZE and PF-HALT (R151), while the part is not in reset. -/
def State.clockRuns (s : State) : Bool :=
  s.su.supply == .running && s.pow.state != .doze && s.pow.state != .pfHalt

/-- A timer `t` after `n` ms, stopping at its limit. -/
def advance (limit t n : Nat) : Nat := min limit (t + n)

/-- Assembly timer (R13): a limit of 0 never expires, and the timer then only counts. -/
def OpenCtx.pass (limit n : Nat) (c : OpenCtx) : OpenCtx :=
  { c with elapsed := if limit = 0 then c.elapsed + n else advance limit c.elapsed n }

/-- The assembly timers of four contexts. -/
def passCtx (limit n : Nat) (f : Four (Option OpenCtx)) : Four (Option OpenCtx) := f.map (Option.map (OpenCtx.pass limit n))

/-- Idle timer of an OPEN slot (R85). -/
def SlotState.pass (limit n : Nat) : SlotState → SlotState
  | .opened b t => .opened b (advance limit t n)
  | x => x

/-- Limit of a job's running time in ms (R66, R69, R74); reads, blank checks and verifies have none. -/
def Job.limit : Job → Option Nat
  | .pageProgram _ _ => some 2
  | .burnProgram _ _ _ => some 2
  | .upErase _ => some 50
  | .burnErase _ => some 50
  | _ => none

/-- Running time of the job at the device (R63). -/
def Running.pass (n : Nat) (r : Running) : Running :=
  match r.job.limit with
  | some lim => { r with time := advance lim r.time n }
  | none => r

/-- Power states in which the relapse timer counts (R154). -/
def PowerState.relapseCounts : PowerState → Bool
  | .run => true
  | .settling => true
  | .roused => true
  | .pfDrain => true
  | _ => false

/-- The flush deadline timer of a FILLING buffer that holds records (R46). -/
def FillBuf.pass (limit n : Nat) (f : FillBuf) : FillBuf :=
  if f.recs.isEmpty then f else { f with flush := advance limit f.flush n }

/-- Debounce timers (R166). -/
def passDebounce (cfg : Four ContactCfg) (n : Nat) (f : Four (Option Nat)) : Four (Option Nat) :=
  Four.build (fun i => (f.get i).map (fun t => advance (cfg.get i).debounce t n))

/-- `n` milliseconds pass. Without supply nothing counts. -/
def State.pass (n : Nat) (s : State) : State :=
  if s.su.supply = .off then s
  else
    let clock := s.clockRuns
    { s with
      pow.time := s.pow.time + BitVec.ofNat 48 n
      pow.relapse := if clock && s.pow.state.relapseCounts then advance s.prof.relapseInterval s.pow.relapse n else s.pow.relapse
      pow.wakeTimer := if s.pow.state = .doze then s.pow.wakeTimer.map (fun t => advance (s.prof.wakeInterval * 1000) t n)
        else s.pow.wakeTimer
      ctx := if clock then ⟨passCtx s.prof.assemblyLimit n s.ctx.svp, passCtx s.prof.assemblyLimit n s.ctx.mnp⟩ else s.ctx
      com.filling := if clock then s.com.filling.map (FillBuf.pass s.prof.flushDeadline n) else s.com.filling
      flash.current := if clock then s.flash.current.map (Running.pass n) else s.flash.current
      img.slots := if clock && s.pow.state == .run then s.img.slots.map (SlotState.pass (s.prof.imageIdle * 1000) n) else s.img.slots
      quiet.remaining := if clock && s.pow.state == .run then s.quiet.remaining.map (· - n) else s.quiet.remaining
      quiet.pulse := s.quiet.pulse.map (fun t => advance 10 t n)
      con.debounce := passDebounce s.prof.contacts n s.con.debounce
      dram.residency := if s.dram.mode = .selfRefresh then advance 1 s.dram.residency n else s.dram.residency }

end Sys2Proof.Machine
end

