-- ==== Sys2Proof/Machine/DramOps.lean ====
section
/-! DEFINITION. DRAM Controller operations: mapping (R124), open rows (R127, R128), arbiter (R129 to R131), ECC effects (R132, R133, R136), grants. -/

namespace Sys2Proof.Machine

/-! ## Requests and the free DRAM -/

/-- A requester presents a request (R125). -/
def State.present (who : Source) (q : DramReq) (s : State) : State :=
  { s with dram.waiting := s.dram.waiting.set who (some q) }

/-- Self-refresh entry has been requested and goes on: it waits while a record is in the ring write queue (R24, R147; log 15). -/
def State.entryDue (s : State) : Bool := s.dram.entryReq.isSome && s.stg.queue.isEmpty

/-- The DRAM is free (R129). Once self-refresh entry goes on, it pays its refreshes and is not free (R147). -/
def State.dramFree (s : State) : Bool :=
  s.dram.mode == .usable && !s.entryDue && s.dram.grant.isNone && s.dram.refresh == .none

/-- A request of one of the six requesters is waiting. -/
def Dram.anyWaiting (d : Dram) : Bool := Source.order.any (fun r => (d.waiting.get r).isSome)

/-! ## Mapping and open rows (R124, R126, R127) -/

/-- First word offset and word count of a request. -/
def DramReq.span : DramReq → Nat × Nat
  | .read off len => (off, len)
  | .write off ws => (off, ws.length)
  | .rmw off _ _ => (off, 1)

/-- Span of a grant. -/
def Grant.span : Grant → Nat × Nat
  | .source _ q => q.span
  | .writeBack off => (off, 1)
  | .patrol off => (off, 8)

/-- Words of the geometry (R123). -/
def geometryWords (p : Profile) : Nat := p.banks * p.rows * p.cols

/-- Column, bank and row of a word offset (R124). -/
def columnOf (p : Profile) (w : Nat) : Nat := w % p.cols
def bankOf (p : Profile) (w : Nat) : Nat := (w / p.cols) % p.banks
def rowOf (p : Profile) (w : Nat) : Nat := w / (p.cols * p.banks)

/-- The (bank, row) pairs a request touches: one, or two where it crosses a row end (R124). -/
def accesses (p : Profile) (off len : Nat) : List (Nat × Nat) :=
  let first := (bankOf p off, rowOf p off)
  let last := (bankOf p (off + len - 1), rowOf p (off + len - 1))
  if first = last then [first] else [first, last]

/-- The lowest-numbered entry that passes a test. -/
def findEntry (t : Four RowEntry) (q : RowEntry → Bool) : Option (Fin 4) :=
  if q t.c0 then some 0 else if q t.c1 then some 1 else if q t.c2 then some 2 else if q t.c3 then some 3 else none

/-- The entry an access uses (R127): the one that holds its bank, else the lowest closed one, else the one with use rank 4. -/
def entryFor (t : Four RowEntry) (bank : Nat) : Fin 4 :=
  match findEntry t (fun e => e.bank == some bank) with
  | some i => i
  | none =>
    match findEntry t (fun e => e.row.isNone) with
    | some i => i
    | none => (findEntry t (fun e => e.rank == 4)).getD 3

/-- The entry used takes rank 1 and every entry of a lower rank number moves down by one (R127). -/
def useEntry (t : Four RowEntry) (i : Fin 4) (bank row : Nat) : Four RowEntry :=
  let old := (t.get i).rank
  let aged := t.map (fun e => if e.rank < old then { e with rank := e.rank + 1 } else e)
  aged.set i { bank := some bank, row := some row, rank := 1 }

/-- One access looked up in the table (R127). -/
def touchRow (t : Four RowEntry) (a : Nat × Nat) : Four RowEntry := useEntry t (entryFor t a.1) a.1 a.2

/-- The accesses of a request, in address order. -/
def touchRows (t : Four RowEntry) (as : List (Nat × Nat)) : Four RowEntry := as.foldl touchRow t

/-- Close-all (R128). -/
def State.closeAll (s : State) : State := { s with dram.rows := closedRows s.prof.banks }

/-! ## Arbiter (R129 to R131) -/

/-- A requester waits. -/
def Dram.waits (d : Dram) (r : Source) : Bool := (d.waiting.get r).isSome

/-- Threshold of a requester under WSP (R131). -/
def wspThreshold (p : Profile) (r : Source) : Nat := 16 - p.weights.get r

/-- A requester is due under WSP (R131). -/
def due (p : Profile) (d : Dram) (r : Source) : Bool := decide (wspThreshold p r ≤ d.passover.get r)

/-- The requester granted among the six (R130, R131). -/
def chooseSource (p : Profile) (d : Dram) : Option Source :=
  let highest := Source.order.find? (fun r => d.waits r)
  match p.policy with
  | .sp => highest
  | .wsp =>
    match Source.order.find? (fun r => d.waits r && due p d r) with
    | some r => some r
    | none => highest

/-- Passover counts after a choice (R131): SP holds no state (R130). -/
def passoversAfter (p : Profile) (d : Dram) (granted : Source) : PerSource Nat :=
  match p.policy with
  | .sp => d.passover
  | .wsp => PerSource.build (fun r =>
      if r = granted then 0
      else if d.waits r then saturate (wspThreshold p r) (d.passover.get r) 1
      else d.passover.get r)

/-- What SCRUB presents (R134, R145): a write-back of the queue's front, ahead of a patrol read. -/
def scrubRequest (d : Dram) : Option Grant :=
  match d.correction with
  | off :: _ => some (.writeBack off)
  | [] => if 0 < d.patrol then some (.patrol d.scrub) else none

/-- The grant the arbiter would make: one of the six, or SCRUB when none of them waits and no trickle refresh is owed (R129, R144). -/
def nextGrant (p : Profile) (d : Dram) : Option Grant :=
  match chooseSource p d with
  | some r => (d.waiting.get r).map (.source r)
  | none => if d.owed = 0 then scrubRequest d else none

/-- Bits that flipped in the device (log 10). -/
def applyUpsets (cells : List (Nat × Code)) : List Upset → List (Nat × Code)
  | [] => cells
  | u :: us => applyUpsets (writeCell dramDefault cells u.offset (readCell dramDefault cells u.offset ^^^ u.flips)) us

/-- A grant begins: the request leaves its requester, the rows and the passover counts take their new values (R127, R131). -/
def State.beginGrant (g : Grant) (s : State) : State :=
  let s := { s with
    dram.grant := some g
    dram.rows := touchRows s.dram.rows (accesses s.prof g.span.1 g.span.2) }
  match g with
  | .source r _ => { s with
      dram.passover := passoversAfter s.prof s.dram r
      dram.waiting := s.dram.waiting.set r none }
  | _ => s

/-- Self-refresh entry goes on once no grant and no refresh is in progress (R147): rows close and the owed refreshes are paid. -/
def State.beginEntry (s : State) : State :=
  if s.entryDue && s.dram.grant.isNone && s.dram.refresh == .none then
    { s.closeAll with dram.refresh := if 0 < s.dram.owed then .entry else .none }
  else s

/-- A grant ends. -/
def State.endGrant (s : State) : State := ({ s with dram.grant := none } : State).beginEntry

/-! ## ECC effects (R132, R133, R136) -/

/-- A word offset offered to the correction queue (R133). -/
def offerCorrection (q : List Nat) (off : Nat) : List Nat :=
  if q.contains off then q else if q.length < 4 then q ++ [off] else q

/-- The effects of one word read: Corrected raises the corrected count and, where `offers`, is offered for a write-back;
Uncorrectable raises the uncorrectable count and FAULT. -/
def State.eccWord (offers : Bool) (s : State) (r : Nat × EccResult) : State :=
  match r.2 with
  | .clean _ => s
  | .corrected _ => { s with
      dram.corrected := saturate 65535 s.dram.corrected 1
      dram.correction := if offers then offerCorrection s.dram.correction r.1 else s.dram.correction
      mir.dirty := s.mir.dirty || decide (s.dram.corrected < 65535) }
  | .uncorrectable _ => ({ s with dram.uncorrectable := saturate 65535 s.dram.uncorrectable 1 } : State).raise .fault

/-- The effects of a read, word by word in address order. -/
def State.eccRead (offers : Bool) (rs : List (Nat × EccResult)) (s : State) : State := rs.foldl (State.eccWord offers) s

/-- The lowest-addressed Uncorrectable word of a read and its syndrome (R136). -/
def firstBad : List (Nat × EccResult) → Option (Nat × BitVec 7)
  | [] => none
  | (off, .uncorrectable syn) :: _ => some (off, syn)
  | _ :: rs => firstBad rs

/-- The DRAM-FAULT record of a read, where its requester calls for one (R136). -/
def State.faultRecord (requester : Nat) (rs : List (Nat × EccResult)) (s : State) : State :=
  match firstBad rs with
  | some (off, syn) => s.offerDramFault off requester syn
  | none => s

/-- The requester codes of R125. -/
def portCode : Port → Nat
  | .svp => 1
  | .mnp => 2
def stagerCode : Nat := 3
def scrubCode : Nat := 7

/-! ## The DRAM side of a grant -/

/-- The words a request reads, classified (R132): none for a whole-word write. -/
def readsOf (cells : List (Nat × Code)) : DramReq → List (Nat × EccResult)
  | .read off len => readDram cells off len
  | .write _ _ => []
  | .rmw off _ _ => readDram cells off 1

/-- DRAM contents after a request: a whole-word write, or the merged word of a read-modify-write whose read is usable (R135). -/
def cellsAfter (cells : List (Nat × Code)) : DramReq → List (Nat × Code)
  | .read _ _ => cells
  | .write off ws => writeDram cells off ws
  | .rmw off w en =>
    match readCode (readCell dramDefault cells off) with
    | .uncorrectable _ => cells
    | r => writeDram cells off [mergeWord r.word w en]

/-- A request is a read-modify-write, whose Corrected read offers no write-back (R133). -/
def DramReq.isRmw : DramReq → Bool
  | .rmw _ _ _ => true
  | _ => false

/-- The request of a grant carried out: contents, counts, correction queue and FAULT; no record, no requester effect. -/
def State.carryOut (q : DramReq) (s : State) : State :=
  State.eccRead (!q.isRmw) (readsOf s.dram.cells q) { s with dram.cells := cellsAfter s.dram.cells q }

/-- A write-back carried out on a word (R134). -/
def writeBackCells (cells : List (Nat × Code)) (off : Nat) : List (Nat × Code) :=
  match readCode (readCell dramDefault cells off) with
  | .corrected w => writeDram cells off [w]
  | _ => cells

/-- The scrub pointer after a patrol read (R146). -/
def scrubNext (p : Profile) (ptr : Nat) : Nat := if geometryWords p ≤ ptr + 8 then 0 else ptr + 8

/-! ## Refresh timer (R141) -/

/-- The period a reload takes: half, rounded down, while HOT is asserted. -/
def reloadPeriod (p : Profile) (hot : Bool) : Nat := if hot then p.refreshPeriod / 2 else p.refreshPeriod

/-- The refresh timer reloads and runs. -/
def State.reload (s : State) : State :=
  { s with dram.period := reloadPeriod s.prof s.pow.hot, dram.timerOn := true }

end Sys2Proof.Machine
end

