-- ==== Sys2Proof/Machine/Operands.lean ====
section
/-! DEFINITION. The operand of a port command: the port's current request, its gating (R119), its lookup (R114), its dispatch (R115, R116); answering and admitting requests (R110). -/

namespace Sys2Proof.Machine

/-- Reason codes (R118). -/
def Reason.code : Reason → Nat
  | .nowindow => 1
  | .port => 2
  | .direction => 3
  | .protect => 4
  | .full => 5
  | .busy => 6
  | .order => 7
  | .range => 8
  | .kind => 9
  | .width => 10
  | .split => 11
  | .power => 12
  | .fault => 13
  | .notready => 14

/-- One port's state replaced. -/
def State.setPort (p : Port) (ps : PortState) (s : State) : State := { s with ports := s.ports.set p ps }

/-- How the port's current request stands, replaced. -/
def State.setCarry (p : Port) (c : Carry) (s : State) : State := s.setPort p { s.ports.get p with carry := c }

/-- A request on the stalled bus joins the queue when there is a place and the ports accept requests (R110, R122). -/
def PortState.unstall (accepting : Bool) (ps : PortState) : PortState :=
  match ps.bus with
  | r :: rest => if accepting && decide (ps.queue.length < 4) then { ps with queue := ps.queue ++ [r], bus := rest } else ps
  | [] => ps

/-- The ports accept requests but during either reset and without supply (R122). -/
def State.accepting (s : State) : Bool := s.su.supply == .running

/-- The current request is answered: it leaves the queue, and a stalled request takes the place that frees (R110). -/
def State.answer (p : Port) (r : Response) (s : State) : State :=
  let ps := s.ports.get p
  s.setPort p (PortState.unstall s.accepting { ps with queue := ps.queue.tail, carry := .untaken, answers := ps.answers ++ [r] })

/-- A reset that ends lets up to four stalled requests into the empty queue (R122). -/
def PortState.unstallAll (ps : PortState) : PortState :=
  ((ps.unstall true).unstall true).unstall true |>.unstall true

/-! ## Gating (R119, R120) -/

/-- What the power state and the SVRST pulse decide for a request at its take. -/
inductive Gate where
  | serve
  | refuse (r : Reason)
  | hold
deriving DecidableEq, Repr

/-- Gating at the take. From the DOZE commit point on no request is taken (R156). -/
def State.gate (s : State) (p : Port) : Gate :=
  if s.dram.entryReq = some .doze then .hold
  else match s.pow.state with
    | .starting => .refuse .notready
    | .run => if p = .svp ∧ s.quiet.pulse.isSome then .refuse .power else .serve
    | .settling => if p = .svp then .refuse .power else .serve
    | .roused => if p = .svp then .refuse .power else .serve
    | .doze => .hold
    | .pfDrain => .refuse .power
    | .pfHalt => .refuse .power

/-! ## Lookup and dispatch (R114 to R116) -/

/-- Where a request goes. -/
inductive Dispatch where
  /-- no request is there to take, or none is taken in this state -/
  | nothing
  | gated (r : Reason)
  | nowindow
  | portOrSplit (r : Reason)
  | direction
  /-- DRAM word offset of a plain read or write, of a mirror read -/
  | plainRead (off : Nat)
  | plainWrite (off : Nat)
  | mirrorRead (off : Nat)
  /-- DRAM word offset of the acknowledge word -/
  | ackWrite (off : Nat)
  | mirrorRefusal (r : Reason)
  | opening (cls : ClassId)
  | payload (cls : ClassId) (k : Nat)
  | offRange
  | burst (cls : ClassId) (k : Nat)
  /-- image block and word in it -/
  | imageRead (block word : Nat)
  | imageWrite (block word : Nat)
  /-- flash word address -/
  | flashRead (word : Nat)
deriving DecidableEq, Repr

/-- The window that holds an address (R114). -/
def findWindow (ws : List Window) (a : Nat) : Option Window :=
  ws.find? (fun w => w.valid && decide (w.base ≤ a) && decide (a < w.base + w.size))

/-- A port is in a window's mask. -/
def Window.admits (w : Window) : Port → Bool
  | .svp => w.svp
  | .mnp => w.mnp

/-- All four byte enables are set. -/
def wholeWord (r : Request) : Bool := r.enables == 0xF#4

/-- A single-word write with not all enables set (R111). -/
def partialWord (r : Request) : Bool := r.len == 1 && !wholeWord r

/-- Dispatch of a request inside its window, at window offset `o` (R115, R116). -/
def dispatchIn (w : Window) (o : Nat) (r : Request) : Dispatch :=
  match w.kind with
  | .plainRw => if r.write then .plainWrite ((w.target + o) / 4) else .plainRead ((w.target + o) / 4)
  | .plainRo => if r.write then .direction else .plainRead ((w.target + o) / 4)
  | .journal =>
    if !r.write then .direction
    else if r.len ≠ 1 then .burst (journalClass w) (o / 4)
    else if o / 4 = 0 then .opening (journalClass w)
    else if o / 4 ≤ 12 then .payload (journalClass w) (o / 4)
    else .offRange
  | .image =>
    if r.write then .imageWrite (w.target + o / 4096) (o % 4096 / 4) else .imageRead (w.target + o / 4096) (o % 4096 / 4)
  | .flashRead => if r.write then .direction else .flashRead (w.target * 1024 + o / 4)
  | .mirror =>
    if !r.write then .mirrorRead ((w.target + o) / 4)
    else if r.len ≠ 1 ∨ o ≠ 248 then .mirrorRefusal .protect
    else if !wholeWord r then .mirrorRefusal .width
    else .ackWrite ((w.target + o) / 4)

/-- Lookup of a request (R114): the checks in order, then the dispatch. -/
def lookup (ws : List Window) (r : Request) : Dispatch :=
  let a := r.addr.toNat
  match findWindow ws a with
  | none => .nowindow
  | some w =>
    if !w.admits r.port then .portOrSplit .port
    else if w.base + w.size < a + 4 * r.len then .portOrSplit .split
    else if w.kind = .image ∧ 4096 < (a - w.base) % 4096 + 4 * r.len then .portOrSplit .split
    else dispatchIn w (a - w.base) r

/-- The current request of a port (R110). -/
def State.currentRequest (s : State) (p : Port) : Option Request := (s.ports.get p).queue.head?

/-- A read of one word, standing for the current request of a port that has none; no command reads it there. -/
def noRequest : Request := { port := .svp, write := false, addr := 0#32, len := 1, enables := 0xF#4, data := [] }

/-- The port's current request. -/
def State.front (s : State) (p : Port) : Request := (s.currentRequest p).getD noRequest

/-- Where a request goes when it is taken now (R114, R119). -/
def State.dispatch (s : State) (p : Port) (r : Request) : Dispatch :=
  match s.gate p with
  | .hold => .nothing
  | .refuse reason => .gated reason
  | .serve => lookup s.prof.windows r

/-- Where the port's current request goes: when it is taken now (R110), or as a payload write that was taken before its port's
records were abandoned and reaches its context now (R15, R171; log 37). -/
def State.taking (s : State) (p : Port) : Dispatch :=
  if s.su.supply ≠ .running then .nothing
  else match (s.ports.get p).carry, s.currentRequest p with
    | .untaken, some r => s.dispatch p r
    | .taken, some r => lookup s.prof.windows r
    | _, _ => .nothing

/-- A write of payload words to a context, with no opening word before them. -/
def Dispatch.isPayload : Dispatch → Bool
  | .payload _ _ => true
  | .burst _ k => decide (1 ≤ k)
  | _ => false

/-- A payload write at the front of a port's queue has been taken when an event abandons the port's records (R110): it reaches
its context, which is then empty, and is refused ORDER (R15, R119, R171; log 37). -/
def State.latchPayload (p : Port) (s : State) : State := if (s.taking p).isPayload then s.setCarry p .taken else s

/-- An MNP request taken restarts the relapse timer (R154). -/
def State.take (p : Port) (s : State) : State :=
  match p with
  | .svp => s
  | .mnp => { s with pow.relapse := 0 }

/-- The current request is taken and refused at once (R114, R115, R119). -/
def State.refuseNow (p : Port) (r : Reason) (s : State) : State := (s.take p).answer p (.refused r)

/-- The DRAM request of a write: whole words, or a read-modify-write of one word with not all enables set (R111, R135). -/
def writeReq (off : Nat) (r : Request) : DramReq :=
  if partialWord r then .rmw off (wordAt r.data 0) r.enables else .write off r.data

end Sys2Proof.Machine
end

