-- ==== Sys2Proof/Machine/Assembly.lean ====
section
/-! DEFINITION. Assembly contexts (R6 to R19): opening, payload, completion, abandonment, bursts. Operations only; the commands are in Journal.lean. -/

namespace Sys2Proof.Machine

/-- The context of a port and a class (R7). -/
def State.context (s : State) (p : Port) (c : ClassId) : Option OpenCtx := (s.ctx.get p).get c

/-- One context replaced. -/
def State.setContext (p : Port) (c : ClassId) (x : Option OpenCtx) (s : State) : State :=
  { s with ctx := s.ctx.set p ((s.ctx.get p).set c x) }

/-! ## Abandonment (R14 to R16) -/

/-- Payload words present. -/
def OpenCtx.received (x : OpenCtx) : Nat := (x.words.filter Option.isSome).length

/-- Cause codes of R14. -/
def causeReopen : Nat := 1
def causeLimit : Nat := 2
def causeSvrst : Nat := 3
def causeSettle : Nat := 4
def causePfDrain : Nat := 5

/-- An open context is emptied, its reservation released, and an ABANDONED record offered (R14). -/
def State.abandon (p : Port) (c : ClassId) (cause : Nat) (s : State) : State :=
  match s.context p c with
  | none => s
  | some x =>
    ((s.setContext p c none).release c).offerNow 0xF7#8 false
      [numWord (portCode p), numWord c.val, numWord x.kind.toNat, numWord x.received, numWord cause]

/-- Every open context of a port abandoned, in class order (R15, R16). -/
def State.abandonPort (p : Port) (cause : Nat) (s : State) : State :=
  (((s.abandon p 0 cause).abandon p 1 cause).abandon p 2 cause).abandon p 3 cause

/-! ## Completion (R12, R18, R19) -/

/-- TIMESET (R3). -/
def timesetKind : Byte := 0xEE#8

/-- The count a TIMESET payload gives (R19): word 1 low, the low 16 bits of word 2 high. -/
def timesetValue (payload : List Word) : Time :=
  BitVec.ofNat 48 ((wordAt payload 0).toNat + (bits (wordAt payload 1) 0 16) <<< 32)

/-- A completing TIMESET loads the time base and clears UNSET (R19); a change of UNSET sets dirty, a change of the count alone
does not (R173). -/
def State.loadTime (t : Time) (s : State) : State :=
  { s with pow.time := t, pow.unset := false, mir.dirty := s.mir.dirty || s.pow.unset }

/-- A record completed by SVP re-arms the quiet timer (R170). -/
def State.rearm (s : State) : State :=
  { s with
    quiet.remaining := s.quiet.remaining.map (fun _ => s.prof.quietInterval * 1000)
    quiet.count := 0
    mir.dirty := s.mir.dirty || s.quiet.count != 0 }

/-- The re-arm for records of a port: MNP's completions do not re-arm. -/
def State.rearmFor (p : Port) (s : State) : State :=
  match p with
  | .svp => s.rearm
  | .mnp => s

/-- A record completes (R12): a TIMESET loads the time base first; the record is stamped and joins the ring write queue with
the reservation its context held; the context is empty. -/
def State.complete (p : Port) (c : ClassId) (kind : Byte) (urgent : Bool) (payload : List Word) (s : State) : State :=
  let s := if kind = timesetKind then s.loadTime (timesetValue payload) else s
  let stamp := { s.stamp with tset := kind == timesetKind }
  let r : Record := { kind := kind, urgent := urgent, origin := Origin.ofPort p, stamp := stamp, payload := payload }
  State.rearmFor p { s.setContext p c none with
    stg.queue := s.stg.queue ++ [{ cls := c, port := some p, body := r }] }

/-! ## Opening (R8, R9) -/

/-- A port is in a class's mask (R1). -/
def ClassParams.admits (k : ClassParams) : Port → Bool
  | .svp => k.svp
  | .mnp => k.mnp

/-- Kinds a port may open, TIMESET included (R3). -/
def portKind (k : Byte) : Bool := decide (1 ≤ k.toNat) && decide (k.toNat ≤ 0xEE)

/-- The first check of R8 that an opening word fails. `whole` says all four byte enables count as set. -/
def openingRefusal (params : ClassParams) (p : Port) (whole : Bool) (w : Word) : Option Reason :=
  if !whole then some .width
  else if !portKind (kindOf w) then some .kind
  else if kindOf w = timesetKind ∧ p = .mnp then some .protect
  else if kindOf w = timesetKind ∧ lengthOf w ≠ 2 then some .kind
  else if 12 < lengthOf w then some .range
  else if !params.admits p then some .port
  else none

/-- A context opened by an accepted opening word (R9). -/
def newContext (w : Word) : OpenCtx :=
  { kind := kindOf w, n := lengthOf w, urgent := urgentOf w, words := List.replicate 12 none, elapsed := 0 }

/-- An opening word at a context: the record before it is abandoned, then the checks, then the reservation (R8, R9). -/
def State.openRecord (p : Port) (c : ClassId) (whole : Bool) (w : Word) (s : State) : Option Reason × State :=
  let s := s.abandon p c causeReopen
  match openingRefusal (s.prof.classes.get c) p whole w with
  | some r => (some r, s)
  | none =>
    if s.unclaimed c < openingNeeds c then (some .full, s)
    else
      let s := s.reserve c
      if lengthOf w = 0 then (none, s.complete p c (kindOf w) (urgentOf w) [])
      else (none, s.setContext p c (some (newContext w)))

/-! ## Payload (R10, R12) -/

/-- The first check of R10 that a payload word fails. -/
def payloadRefusal (x : Option OpenCtx) (k : Nat) (whole : Bool) : Option Reason :=
  match x with
  | none => some .order
  | some x => if x.n < k then some .range else if !whole then some .width else none

/-- Payload word `k` stored (R10). -/
def OpenCtx.store (x : OpenCtx) (k : Nat) (w : Word) : OpenCtx := { x with words := x.words.set (k - 1) (some w) }

/-- Words 1..n are all present (R12). -/
def OpenCtx.full (x : OpenCtx) : Bool := (x.words.take x.n).all Option.isSome

/-- The payload of a full context. -/
def OpenCtx.payload (x : OpenCtx) : List Word := (x.words.take x.n).map (·.getD 0#32)

/-- A payload word at a context (R10, R12). -/
def State.putPayload (p : Port) (c : ClassId) (k : Nat) (whole : Bool) (w : Word) (s : State) : Option Reason × State :=
  match payloadRefusal (s.context p c) k whole, s.context p c with
  | none, some x =>
    let y := x.store k w
    (none, if y.full then s.complete p c y.kind y.urgent y.payload else s.setContext p c (some y))
  | some r, _ => (some r, s)
  | none, none => (some .order, s)

/-- A word at a journal window offset (R6). -/
def State.journalWord (p : Port) (c : ClassId) (k : Nat) (whole : Bool) (w : Word) (s : State) : Option Reason × State :=
  if k = 0 then s.openRecord p c whole w
  else if k ≤ 12 then s.putPayload p c k whole w
  else (some .range, s)

/-- The words of a burst, in order, up to the first that is refused (R11). -/
def State.journalWords (p : Port) (c : ClassId) : Nat → List Word → State → Option Reason × State
  | _, [], s => (none, s)
  | k, w :: ws, s =>
    match s.journalWord p c k true w with
    | (none, s) => State.journalWords p c (k + 1) ws s
    | (some r, s) => (some r, s)

/-- The response to a journal write (R11). -/
def journalResponse : Option Reason → Response
  | none => .done []
  | some r => .refused r

end Sys2Proof.Machine
end

