-- ==== Sys2Proof/Machine/CommitOps.lean ====
section
/-! DEFINITION. Commit Engine operations (R38 to R60): scheduling, placement, closing, going in flight, confirmation, failure, stall, upkeep. -/

namespace Sys2Proof.Machine

/-! ## Scheduling (R40 to R42) -/

/-- The algorithm in force: SP in PF-DRAIN, else the profile's (R40). -/
def State.alg (s : State) : CommitAlg := if s.pow.state = .pfDrain then .sp else s.prof.alg

/-- Power states in which the scheduler chooses (R40, R59). -/
def PowerState.commits : PowerState → Bool
  | .run => true
  | .settling => true
  | .roused => true
  | .pfDrain => true
  | _ => false

/-- A configured class's commit queue is not empty. -/
def State.queued (s : State) (c : ClassId) : Bool := (s.prof.classes.get c).configured && !(s.com.queues.get c).isEmpty

/-- Every commit queue is empty (R40, R46). -/
def Commit.drained (c : Commit) : Bool := c.queues.toList.all List.isEmpty

/-- The next configured class after a round position; true when the position moves past the highest class (R41). -/
def nextClass (p : Profile) (c : ClassId) : ClassId × Bool :=
  let ok (i : ClassId) : Bool := decide (c < i) && (p.classes.get i).configured
  if ok 1 then (1, false) else if ok 2 then (2, false) else if ok 3 then (3, false) else (0, true)

/-- The position moves to the next configured class; under WRR a new round sets every credit (R41, R42). -/
def Sched.move (p : Profile) (alg : CommitAlg) (d : Sched) : Sched :=
  let (c, wrapped) := nextClass p d.pos
  { d with pos := c, begun := false, credits := if alg = .wrr ∧ wrapped then p.classes.map (·.weight) else d.credits }

/-- SP: the lowest-numbered configured class whose queue is not empty (R40). -/
def chooseSp (s : State) : Option ClassId :=
  if s.queued 0 then some 0 else if s.queued 1 then some 1 else if s.queued 2 then some 2 else if s.queued 3 then some 3 else none

/-- WRR (R41): the position moves past classes with an empty queue or no credit. -/
def chooseWrr (s : State) : Nat → Sched → Sched × Option ClassId
  | 0, d => (d, none)
  | fuel + 1, d =>
    if s.queued d.pos ∧ 0 < d.credits.get d.pos then (d, some d.pos) else chooseWrr s fuel (d.move s.prof .wrr)

/-- DWRR (R42): a turn that begins sets the deficit of an empty class to 0 and moves on, or adds the quantum once. -/
def chooseDwrr (s : State) : Nat → Sched → Sched × Option ClassId
  | 0, d => (d, none)
  | fuel + 1, d =>
    if d.begun ∧ s.queued d.pos then (d, some d.pos)
    else if s.queued d.pos then
      ({ d with begun := true, deficits := d.deficits.set d.pos (d.deficits.get d.pos + (s.prof.classes.get d.pos).quantum) }, some d.pos)
    else chooseDwrr s fuel (Sched.move s.prof .dwrr { d with deficits := d.deficits.set d.pos 0 })

/-- The scheduler's choice and its new state. Two rounds of visits reach a class with a waiting record. -/
def chooseClass (s : State) : Sched × Option ClassId :=
  match s.alg with
  | .sp => (s.com.sched, chooseSp s)
  | .wrr => chooseWrr s 9 s.com.sched
  | .dwrr => chooseDwrr s 9 s.com.sched

/-- The charge for a placement (R41, R42): a credit, or the size in bytes; a DWRR turn ends when its queue is empty. The same for
a held candidate whose turn a return to the start of a round has ended: its deficit stops at 0, and with its queue empty the
position moves on (log 22). -/
def chargeSched (p : Profile) (alg : CommitAlg) (d : Sched) (r : Placed) (queueEmpty : Bool) : Sched :=
  match alg with
  | .sp => d
  | .wrr => { d with credits := d.credits.set r.cls (d.credits.get r.cls - 1) }
  | .dwrr =>
    if queueEmpty then Sched.move p .dwrr { d with deficits := d.deficits.set r.cls 0 }
    else { d with deficits := d.deficits.set r.cls (d.deficits.get r.cls - r.size) }

/-! ## Placement and closing (R44 to R46) -/

/-- The FILLING buffer closes: its header content is formed (R46). -/
def Commit.close (cause : CloseCause) (c : Commit) : Commit :=
  match c.filling with
  | none => c
  | some f => { c with
      filling := none
      closed := c.closed ++ [{ recs := f.recs
                               placed := Four.build (fun i => if c.placedPresent.get i then c.placedSeq.get i else 0#32)
                               mask := c.placedPresent
                               cause := cause }] }

/-- A FREE buffer becomes FILLING when none is (R45). -/
def Commit.refill (c : Commit) : Commit :=
  if c.filling.isNone && decide (c.closed.length + (if c.inflight.isSome then 1 else 0) < 2) then { c with filling := some emptyFill } else c

/-- A candidate placed in the FILLING buffer (R44): queue, buffer, placed sequence, charge, and URGENT close. When every
commit queue is then empty the scheduler returns to the start of a round (R40). -/
def Commit.place (p : Profile) (f : FillBuf) (x : Candidate) (c : Commit) : Commit :=
  let cls := x.body.cls
  let queues := c.queues.set cls (c.queues.get cls).tail
  let d := chargeSched p x.alg c.sched x.body (queues.get cls).isEmpty
  let c : Commit := { c with
    queues := queues
    placedSeq := c.placedSeq.set cls x.body.seq
    placedPresent := c.placedPresent.set cls true
    filling := some { recs := f.recs ++ [x.body], flush := if f.recs.isEmpty then 0 else f.flush }
    sched := d }
  let c : Commit := if c.drained then { c with sched := startOfRound p } else c
  if x.body.urgent then c.close .urgent else c

/-- A fetched candidate is placed, or closes the buffer by FIT and is held; without a FILLING buffer it is held (R44). -/
def Commit.arrive (p : Profile) (x : Candidate) (c : Commit) : Commit :=
  match c.filling with
  | none => { c with held := some x }
  | some f => if fits f.recs x.body then c.place p f x else { c.close .fit with held := some x }

/-- The held candidate goes first into the next FILLING buffer (R44). -/
def Commit.placeHeld (p : Profile) (c : Commit) : Commit :=
  match c.held, c.filling with
  | some x, some f => Commit.place p f x { c with held := none }
  | _, _ => c

/-- Buffers that can be filled are, and the held candidate goes into the new one. -/
def Commit.turnOver (p : Profile) (c : Commit) : Commit := ((c.refill).placeHeld p).refill

/-- The FILLING buffer holds a record. -/
def Commit.fillingHolds (c : Commit) : Bool :=
  match c.filling with
  | some f => !f.recs.isEmpty
  | none => false

/-- Power states in which a page closes by DRAIN (R46, R59). -/
def PowerState.drains : PowerState → Bool
  | .settling => true
  | .roused => true
  | .pfDrain => true
  | _ => false

/-- The DRAIN close condition (R46). -/
def State.drainClose (s : State) : Bool :=
  s.pow.state.drains && s.com.drained && s.stg.queue.isEmpty && s.com.held.isNone && s.com.fillingHolds

/-! ## Head, stall (R47, R54) -/

/-- A head page is available (R47). -/
def Commit.headAvailable (c : Commit) : Bool := decide (c.headPage < 16) || decide (0 < c.ahead)

/-- A buffer must be programmed: a CLOSED one with none IN-FLIGHT, or a retry (R54). -/
def Commit.mustProgram (c : Commit) : Bool :=
  match c.inflight with
  | some f => f.waiting
  | none => !c.closed.isEmpty

/-- Commit is stalled (R54). -/
def Commit.stalled (c : Commit) : Bool := c.mustProgram && !c.headAvailable

/-- A stall with the journal-full flag clear sets it, offers JOURNAL-EVENT 4 and raises FULL (R54). -/
def State.noteStall (s : State) : State :=
  if s.com.stalled && !s.com.full then
    ((({ s with com.full := true } : State).mark).offerJournalEvent 4 s.com.headBlock 0).raise .full
  else s

/-- What follows at once from a change of the buffers, queues or power state: a FREE buffer fills, the held candidate is
placed, a drained page closes, and a stall is noted (R45, R46, R54). -/
def State.settle (s : State) : State :=
  let s := { s with com := s.com.turnOver s.prof }
  let s := if s.drainClose then { s with com := (s.com.close .drain).turnOver s.prof } else s
  s.noteStall

/-- The new head block (R47): the first block after the old one that is not on the skip list. -/
def Commit.newHead (c : Commit) : Nat := ringFind (fun x => !c.skip.contains x) 1792 c.headBlock

/-- Blocks passed over from `b` (not included) to `stop` (not included), at most `fuel` of them. -/
def passedOver (stop : Nat) : Nat → Nat → List Nat
  | 0, _ => []
  | fuel + 1, b => if ringNext b = stop then [] else ringNext b :: passedOver stop fuel (ringNext b)

/-- With the head page at 16 the head moves to the next erased-ahead block (R47, R52, R53, R56): skip-list blocks passed over
leave the list, and a list that shrinks releases held upkeep. -/
def Commit.moveHead (c : Commit) : Commit :=
  if c.headPage < 16 then c
  else
    let b := c.newHead
    let gone := passedOver b 1792 c.headBlock
    let skip := c.skip.filter (fun x => !gone.contains x)
    { c with
      headBlock := b, headPage := 0, ahead := c.ahead - 1, failed := 0, skip := skip
      upkeepHeld := c.upkeepHeld && decide (skip.length = c.skip.length) }

/-- A page goes in flight at the head (R48 steps 1 to 4; R50 for a retry). -/
def Commit.launch (b : ClosedBuf) (retry : Bool) (c : Commit) : Commit :=
  let c := c.moveHead
  { c with
    inflight := some { buf := b, pageSeq := c.nextPage, block := c.headBlock, page := c.headPage, retry := retry, waiting := false }
    nextPage := c.nextPage + 1#32 }

/-- The buffer that goes in flight next: a waiting retry, or with none IN-FLIGHT the CLOSED buffer that closed first (R48, R50). A retry
keeps the close cause it closed with, beside RETRY (log 42). -/
def Commit.launchNext (c : Commit) : Commit :=
  match c.inflight, c.closed with
  | some f, _ => c.launch f.buf true
  | none, b :: rest => Commit.launch b false { c with closed := rest }
  | none, [] => c

/-- The journal jobs of the IN-FLIGHT buffer, VERIFY after PROGRAM (R48). -/
def State.offerPage (s : State) : State :=
  match s.com.inflight with
  | some f => { s with flash.journal := [.pageProgram f.block f.page, .pageVerify f.block f.page] }
  | none => s

/-- Commit resumes: the journal-full flag clears and JOURNAL-EVENT 5 is offered with the new target (R54). -/
def State.noteResume (s : State) : State :=
  if s.com.full then (({ s with com.full := false } : State).mark).offerJournalEvent 5 s.com.headBlock s.com.headPage else s

/-! ## Confirmation and failure (R29, R49 to R53) -/

/-- A class's ring after its committed sequence is reported (R29): a report that is not newer changes nothing. -/
def ClassRing.confirm (r : ClassRing) (q : Seq) : ClassRing :=
  if r.present && !newer q r.committed then r
  else { r with staged := r.staged - (q - r.firstUncommitted + 1#32).toNat, committed := q, present := true }

/-- The rings after a page with this mask and these placed sequences is confirmed; a class not configured is ignored (R29). -/
def confirmRings (p : Profile) (mask : Four Bool) (placed : Four Seq) (rings : Four ClassRing) : Four ClassRing :=
  Four.build (fun c => if mask.get c && (p.classes.get c).configured then (rings.get c).confirm (placed.get c) else rings.get c)

/-- The IN-FLIGHT page is confirmed (R49, R57). -/
def State.confirmPage (f : InFlight) (s : State) : State :=
  { s with
    stg.rings := confirmRings s.prof f.buf.mask f.buf.placed s.stg.rings
    com.headPage := s.com.headPage + 1
    com.inflight := none
    com.oldest := if s.com.begun then s.com.oldest else some f.pageSeq
    com.begun := true
    mir.dirty := true }

/-- A block joins the skip list when it has room and does not list it already (R53). -/
def joinSkip (skip : List Nat) (b : Nat) : List Nat :=
  if skip.length < 16 ∧ ¬ skip.contains b then skip ++ [b] else skip

/-- The head block is abandoned (R52). -/
def State.abandonBlock (block : Nat) (s : State) : State :=
  let s := s.offerJournalEvent 2 block 0
  { s with com.skip := joinSkip s.com.skip block, com.headPage := 16, mir.dirty := true }

/-- The IN-FLIGHT page has failed (R50, R51): it stays IN-FLIGHT as a retry. -/
def State.failPage (f : InFlight) (s : State) : State :=
  let s := s.offerJournalEvent 1 f.block f.page
  let s : State := { s with
    com.headPage := s.com.headPage + 1
    com.failed := s.com.failed + 1
    com.inflight := some { f with waiting := true }
    mir.dirty := true }
  if f.page = 0 ∨ 2 ≤ s.com.failed then s.abandonBlock f.block else s

/-! ## Upkeep (R55 to R58) -/

/-- A job belongs to journal upkeep. -/
def Job.isUpkeep : Job → Bool
  | .upErase _ => true
  | .upBlank _ => true
  | .upHeader _ => true
  | _ => false

/-- An upkeep job is waiting or in progress (R55). -/
def Flash.upkeepBusy (f : Flash) : Bool :=
  !f.upkeep.isEmpty
  || (match f.current with | some r => r.job.isUpkeep | none => false)
  || (match f.suspended with | some r => r.job.isUpkeep | none => false)

/-- Power states in which upkeep requests an erase (R55, R59). -/
def PowerState.upkeeps : PowerState → Bool
  | .run => true
  | .settling => true
  | .roused => true
  | _ => false

/-- Upkeep requests an erase of the tail (R55, R58). -/
def State.upkeepDue (s : State) : Bool :=
  decide (s.com.ahead < s.prof.spareTarget) && s.pow.state.upkeeps && !s.lock.journalRetain
    && !s.flash.upkeepBusy && !s.com.upkeepHeld

/-- An upkeep erase or its blank check failed (R56): with a full skip list the block stays the tail and upkeep is held. -/
def State.upkeepFailed (block : Nat) (s : State) : State :=
  let s := s.offerJournalEvent 3 block 0
  if s.com.skip.length < 16 then { s with com.skip := joinSkip s.com.skip block, mir.dirty := true }
  else { s with com.upkeepHeld := true }

/-- The upkeep blank check passed (R56, R57): the block joins the run and the header of the new tail is read. -/
def State.upkeepJoined (s : State) : State :=
  let s : State := { s with com.ahead := s.com.ahead + 1, mir.dirty := true }
  { s with flash.upkeep := [.upHeader s.com.tail] }

/-- The oldest retained page sequence once the header of the new tail has been read (R57; log 18). The page check alone decides, whatever
the page sequence: R57 does not take up the exception of R191. -/
def Commit.oldestAfter (c : Commit) (ws : List Word) : Option Seq :=
  if pageValid ws then some (wordAt ws 0)
  else if allErased ws && c.begun then c.oldest
  else none

/-- The header of the new tail has been read (R57). -/
def State.upkeepHeader (ws : List Word) (s : State) : State :=
  { s with
    com.oldest := s.com.oldestAfter ws
    mir.dirty := s.mir.dirty || decide (s.com.oldestAfter ws ≠ s.com.oldest) }

/-- Commit reports its drain finished (R60). -/
def State.drainFinished (s : State) : Bool :=
  (s.com.drained && s.stg.queue.isEmpty && s.com.held.isNone && s.com.closed.isEmpty && s.com.inflight.isNone)
  || s.com.stalled

end Sys2Proof.Machine
end

