-- ==== Sys2Proof/Machine/FlashOps.lean ====
section
/-! DEFINITION. Flash Operations Unit operations (R63 to R78): choice of the next job, suspension, interruption, abort. -/

namespace Sys2Proof.Machine

/-- An erase of either requester. -/
def Job.isErase : Job → Bool
  | .upErase _ => true
  | .burnErase _ => true
  | _ => false

/-- The device is free (R63). -/
def Flash.free (f : Flash) : Bool := f.current.isNone && f.suspended.isNone

/-- A job as it starts (R69). -/
def Running.start (j : Job) : Running := { job := j, time := 0, suspensions := 0, suspendReq := false, abortReq := false }

/-! ## Choosing (R70) -/

/-- The front job of the burn list, else of the start-up list. -/
def Flash.takeLater (f : Flash) : Option (Job × Flash) :=
  match f.burn, f.startup with
  | j :: rest, _ => some (j, { f with burn := rest })
  | [], j :: rest => some (j, { f with startup := rest })
  | [], [] => none

/-- The job of the upkeep list, where it is eligible: an ERASE that waits where none may start goes on waiting (log 25). -/
def Flash.takeUpkeep (noErase : Bool) (f : Flash) : Option (Job × Flash) :=
  match f.upkeep with
  | j :: rest => if noErase && j.isErase then f.takeLater else some (j, { f with upkeep := rest })
  | [] => f.takeLater

/-- The first job found in the order of R70, and the lists without it. A journal VERIFY stands behind its PROGRAM, so it is
at the front once the PROGRAM has ended DONE. -/
def Flash.takeNext (noErase : Bool) (f : Flash) : Option (Job × Flash) :=
  match f.portReads, f.journal with
  | j :: rest, _ => some (j, { f with portReads := rest })
  | [], j :: rest => some (j, { f with journal := rest })
  | [], [] => f.takeUpkeep noErase

/-! ## Suspension (R72, R73) -/

/-- A running erase with a port read waiting and fewer than 16 suspensions is asked to suspend (R72); one that is being
aborted is not (R76). -/
def Flash.askSuspend (f : Flash) : Flash :=
  match f.current with
  | some r =>
    if r.job.isErase && !f.portReads.isEmpty && decide (r.suspensions < 16) && !r.abortReq then
      { f with current := some { r with suspendReq := true } }
    else f
  | none => f

/-- A port READ joins the port read list (R71) and may request an erase suspension (R72). -/
def State.offerPortRead (p : Port) (word len : Nat) (s : State) : State :=
  let s := s.setCarry p .flash
  { s with flash := Flash.askSuspend { s.flash with portReads := s.flash.portReads ++ [.portRead p word len] } }

/-- The job at the device has ended: a suspended erase resumes (R72), unless it is to be aborted (R76, log 27). -/
def Flash.finish (f : Flash) : Flash :=
  match f.suspended with
  | some r =>
    if r.abortReq then { f with current := none }
    else Flash.askSuspend { f with current := some r, suspended := none }
  | none => { f with current := none }

/-- The job at the device has ended, for the whole state. -/
def State.finishJob (s : State) : State := { s with flash := s.flash.finish }

/-! ## Interrupted operations (R73, R74, R76, R78) -/

/-- A block part-way through an erase: a free value decides each word (log 4). -/
def State.leaveErase (block : Nat) (s : State) : State :=
  { s with flash.cells := partEraseBlock s.free s.flash.cells block, free := s.free + 1 }

/-- A torn page: a free value decides each word (log 4). -/
def State.leaveTorn (block page : Nat) (words : List Word) (s : State) : State :=
  { s with flash.cells := tearWords s.free s.flash.cells (flashAddr block page 0) words, free := s.free + 1 }

/-- The words of the IN-FLIGHT buffer, the source of a journal PROGRAM and VERIFY (R66, R67). -/
def State.pageSource (s : State) : List Word :=
  match s.com.inflight with
  | some f => pageWords f
  | none => []

/-- The flash contents that an operation leaves when it is cut off. -/
def State.cutOff (j : Job) (s : State) : State :=
  match j with
  | .pageProgram b p => s.leaveTorn b p s.pageSource
  | .burnProgram b p ws => s.leaveTorn b p ws
  | .upErase b => s.leaveErase b
  | .burnErase b => s.leaveErase b
  | _ => s

/-- The operation at the device and the suspended erase are cut off by a reset (R78). -/
def State.cutOffAll (s : State) : State :=
  let s := match s.flash.current with
    | some r => s.cutOff r.job
    | none => s
  match s.flash.suspended with
  | some r => s.cutOff r.job
  | none => s

/-- PF-DRAIN entry: a running or suspended erase is to end ABORTED (R76). -/
def Running.abort (r : Running) : Running := if r.job.isErase then { r with abortReq := true } else r

/-- The erase of either requester at PF-DRAIN entry (R76). -/
def State.abortErase (s : State) : State :=
  { s with flash.current := s.flash.current.map Running.abort, flash.suspended := s.flash.suspended.map Running.abort }

end Sys2Proof.Machine
end

