-- ==== Sys2Proof/Machine/ImageOps.lean ====
section
/-! DEFINITION. Image Staging Unit operations (R80 to R98): slots, lock checks, image writes, burn steps, results, pausing, requeueing. -/

namespace Sys2Proof.Machine

/-! ## Slots (R80, R83) -/

/-- The block a slot holds. -/
def SlotState.block : SlotState → Option Nat
  | .empty => none
  | .opened b _ => some b
  | .queued b => some b
  | .burning b => some b

/-- The slot of a block, if it has one (R80: at most one). -/
def Image.slotOf (m : Image) (b : Nat) : Option SlotId := m.slots.find (fun x => x.block == some b)

/-- The lowest-numbered EMPTY slot (R83). -/
def Image.firstEmpty (m : Image) : Option SlotId := m.slots.find (· == .empty)

/-- DRAM word offset of a word of a slot (R80). -/
def State.shadowOff (s : State) (i : SlotId) (word : Nat) : Nat := s.prof.shadowBase / 4 + i.val * 1024 + word

/-- The three checks of R83, made again at step 1 of a burn (R87): the lock store refuses the block. -/
def imageForbidden (l : LockVals) (b : Nat) : Bool :=
  l.imageProgram || (decide (b ≤ l.bootEnd) && l.bootRewrite)
  || (decide (1 ≤ b) && !(decide (l.shieldS ≤ b) && decide (b ≤ l.shieldE)))

/-! ## Taking an image access (R81 to R83) -/

/-- Where the port's image access goes when the Image Staging Unit takes it: at the port's take, or again after a wait (R82, R83). One that
waits is taken up in PF-DRAIN too (log 43). -/
def State.imageTaking (s : State) (p : Port) : Dispatch :=
  if s.su.supply = .running ∧ (s.ports.get p).carry = .imageWait ∧ s.clockRuns then
    match s.currentRequest p with
    | some r => lookup s.prof.windows r
    | none => .nothing
  else s.taking p

/-- An access that has waited leaves the waiting list; the relapse timer restarts at the take only, not when a wait ends (R154). -/
def State.takeImage (p : Port) (s : State) : State :=
  if (s.ports.get p).carry = .untaken then s.take p else { s with img.waiting := s.img.waiting.erase p }

/-- An access waits at the Image Staging Unit; the first time, it joins the waiting list and the relapse timer restarts (R82,
R83, R154). -/
def State.waitImage (p : Port) (s : State) : State :=
  if (s.ports.get p).carry = .untaken then
    (({ s with img.waiting := s.img.waiting ++ [p] } : State).take p).setCarry p .imageWait
  else s

/-- The other port. -/
def otherPort : Port → Port
  | .svp => .mnp
  | .mnp => .svp

/-- The block that the port's current request names, when it is an image access. -/
def State.imageBlock (s : State) (p : Port) : Option Nat :=
  match lookup s.prof.windows (s.front p) with
  | .imageRead b _ => some b
  | .imageWrite b _ => some b
  | _ => none

/-- The other port has waited longer for this block than the port, which has not reached the unit yet or waits behind it (R82). -/
def State.waitsFirst (s : State) (p : Port) (b : Nat) : Bool :=
  s.img.waiting.head? == some (otherPort p) && s.imageBlock (otherPort p) == some b

/-- A write to this block is not the next: the other port's store or fill has not ended, or its access to the block has waited
longer (R82, R83). -/
def State.writeAhead (s : State) (p : Port) (b : Nat) : Bool :=
  match (s.ports.get (otherPort p)).carry with
  | .store i => (s.img.slots.get i).block == some b
  | .fill i _ => (s.img.slots.get i).block == some b
  | _ => s.waitsFirst p b

/-- The other port's allocating write to this block has not ended (R83). -/
def State.fillAhead (s : State) (p : Port) (b : Nat) : Bool :=
  match (s.ports.get (otherPort p)).carry with
  | .fill i _ => (s.img.slots.get i).block == some b
  | _ => false

/-- A port's write of this slot is still in carry (R83; log 23). -/
def State.slotInCarry (s : State) (i : SlotId) : Bool :=
  let busy (c : Carry) : Bool := match c with
    | .store j => j == i
    | .fill j _ => j == i
    | _ => false
  busy (s.ports.get .svp).carry || busy (s.ports.get .mnp).carry

/-- The part's requests of the fill (R83, R125): sixteen FFFFFFFFh words each. -/
def fillWords : List Word := List.replicate 16 erasedWord

/-- Block and word of the image write at the front of a port's queue, by its lookup. -/
def State.imageTarget (s : State) (p : Port) : Nat × Nat :=
  match lookup s.prof.windows (s.front p) with
  | .imageWrite b w => (b, w)
  | _ => (0, 0)

/-- The DRAM request of a port's image write into a slot (R82). -/
def State.storeReq (s : State) (p : Port) (i : SlotId) (word : Nat) : DramReq := writeReq (s.shadowOff i word) (s.front p)

/-- A write into an OPEN slot goes to the DRAM Controller (R82). -/
def State.startStore (p : Port) (i : SlotId) (word : Nat) (s : State) : State :=
  (s.setCarry p (.store i)).present (Source.ofPort p) (s.storeReq p i word)

/-- A slot is allocated and its fill begins (R83). -/
def State.startFill (p : Port) (i : SlotId) (b : Nat) (s : State) : State :=
  (({ s with img.slots := s.img.slots.set i (.opened b 0) } : State).setCarry p (.fill i 0)).present
    (Source.ofPort p) (.write (s.shadowOff i 0) fillWords)

/-- An image write judged against the slot state (R82, R83). -/
def State.imageWriteAt (p : Port) (b word : Nat) (s : State) : State :=
  match s.img.slotOf b with
  | some i =>
    match s.img.slots.get i with
    | .opened _ _ => s.startStore p i word
    | _ => s.answer p (.refused .busy)
  | none =>
    if imageForbidden s.lock b then s.answer p (.refused .protect)
    else match s.img.firstEmpty with
      | some i => s.startFill p i b
      | none => s.answer p (.refused .full)

/-- An image read goes to the slot's DRAM, or to flash for a block with no slot (R81). -/
def State.imageReadAt (p : Port) (b word len : Nat) (s : State) : State :=
  match s.img.slotOf b with
  | some i => (s.setCarry p .plain).present (Source.ofPort p) (.read (s.shadowOff i word) len)
  | none => s.offerPortRead p (b * 1024 + word) len

/-- A stored write restarts the idle timer, and closes the slot when it includes the block's last word (R82, R84). -/
def Image.stored (m : Image) (i : SlotId) (last : Bool) : Image :=
  match m.slots.get i with
  | .opened b _ =>
    if last then { m with slots := m.slots.set i (.queued b), queue := m.queue ++ [i] }
    else { m with slots := m.slots.set i (.opened b 0) }
  | _ => m

/-- A write of `len` words at a word of a block includes word 1023 (R84). -/
def hasLastWord (word len : Nat) : Bool := word + len == 1024

/-- The grant of a port's write into a slot ends (R82, R84, R136). -/
def State.storeEnd (p : Port) (i : SlotId) (q : DramReq) (s : State) : State :=
  let rs := readsOf s.dram.cells q
  let last := hasLastWord (s.imageTarget p).2 (s.front p).len
  let s := (s.carryOut q).endGrant
  if anyBad rs then (s.faultRecord (portCode p) rs).answer p (.refused .fault)
  else ({ s with img := s.img.stored i last } : State).answer p (.done [])

/-! ## Results (R93 to R95) -/

/-- The slot is EMPTY, the result joins the list, a BURN record is offered and BURN is raised (R94). -/
def State.burnResult (i : SlotId) (block code : Nat) (sum : Sum16) (s : State) : State :=
  let s : State := { s with
    img.slots := s.img.slots.set i .empty
    img.results := ({ block := block, code := code, sum := sum } :: s.img.results).take 8
    mir.dirty := true }
  (s.offerNow 0xF4#8 false [numWord block, numWord code, numWord sum.toNat]).raise .burn

/-- The burn in progress ends with a result (R94). -/
def State.burnEnd (b : Burn) (code : Nat) (sum : Sum16) (s : State) : State :=
  ({ s with img.burn := none } : State).burnResult b.slot b.block code sum

/-! ## Steps (R86 to R92) -/

/-- One burn job joins the burn list. -/
def State.offerBurnJob (b : Burn) (j : Job) (s : State) : State :=
  { s with img.burn := some { b with act := .job, paused := false }, flash.burn := [j] }

/-- Read request `k` of a shadow reading: 64 reads of 16 words (R125). -/
def State.shadowRead (s : State) (i : SlotId) (k : Nat) : DramReq := .read (s.shadowOff i (16 * k)) 16

/-- A shadow reading starts (R88, R90). -/
def State.startReading (b : Burn) (s : State) : State :=
  ({ s with img.burn := some { b with act := .reading 0 [], paused := false } } : State).present .burn (s.shadowRead b.slot 0)

/-- The fetch of a source page starts: four reads of 16 words (R66, R125). -/
def State.startFetch (b : Burn) (page : Nat) (s : State) : State :=
  ({ s with img.burn := some { b with act := .fetching 0 [], paused := false } } : State).present .burn (s.shadowRead b.slot (4 * page))

/-- The burn offers the job of its held step (R86, R96). Step 1 has no job; it is made when the burn starts. -/
def State.burnOffer (b : Burn) (s : State) : State :=
  match b.held with
  | .s1 => s
  | .s2 => s.startReading b
  | .s3 => s.offerBurnJob b (.burnBlank b.block)
  | .s4Erase => s.offerBurnJob b (.burnErase b.block)
  | .s4Blank => s.offerBurnJob b (.burnBlank b.block)
  | .s5 none => s.startReading b
  | .s5 (some (page :: _)) => s.startFetch b page
  | .s5 (some []) => s
  | .s6 page _ _ => s.startFetch b page

/-- A boundary between jobs: in RUN the burn offers its next job, in any other state it pauses (R96; log 26). -/
def State.burnNext (b : Burn) (s : State) : State :=
  if s.pow.state = .run then s.burnOffer b
  else { s with img.burn := some { b with act := .idle, paused := true } }

/-- A paused burn offers the job of its held step again (R96, R161). -/
def State.resumeBurn (s : State) : State :=
  match s.img.burn with
  | some b => if b.paused then s.burnOffer b else s
  | none => s

/-- Step 2 (R88): the image is validated as a profile and passes the one-way check, or the burn ends. -/
def State.burnStep2 (b : Burn) (words : List Word) (s : State) : State :=
  match parseProfile (words.take 128) with
  | none => s.burnEnd b 3 0#16
  | some p => if oneWay s.lock p.lock then s.burnNext { b with held := .s3, newLock := some p.lock } else s.burnEnd b 2 0#16

/-- The pages that hold a word other than FFFFFFFFh (R90), of the 1024 words of a shadow. -/
def programSet (words : List Word) : List Nat :=
  (List.range 16).filter (fun page => !allErased ((words.drop (64 * page)).take 64))

/-- The held step after the pages of a program set still to do. -/
def afterPages (pages : List Nat) : HeldStep := if pages.isEmpty then .s6 0 0#16 false else .s5 (some pages)

/-- A shadow reading has ended without a fault: step 2 goes on, or step 5 forms its program set (R88, R90). -/
def State.burnRead (b : Burn) (words : List Word) (s : State) : State :=
  match b.held with
  | .s2 => s.burnStep2 b words
  | _ => s.burnNext { b with held := afterPages (programSet words) }

/-- The job that a fetched source page is for (R66, R67). -/
def Burn.fetchedJob (b : Burn) (words : List Word) : Option Job :=
  match b.held with
  | .s5 (some (page :: _)) => some (.burnProgram b.block page words)
  | .s6 page sum _ => some (.burnVerify b.block page words sum)
  | _ => none

/-- The result of a burn's BLANK-CHECK (R89). -/
def State.burnBlanked (b : Burn) (blank : Bool) (s : State) : State :=
  if blank then s.burnNext { b with held := .s5 none }
  else match b.held with
    | .s4Blank => s.burnEnd b 4 0#16
    | _ => if s.lock.imageErase then s.burnEnd b 2 0#16 else s.burnNext { b with held := .s4Erase }

/-- A burn PROGRAM ended DONE (R90). -/
def State.burnProgrammed (b : Burn) (s : State) : State :=
  match b.held with
  | .s5 (some (_ :: rest)) => s.burnNext { b with held := afterPages rest }
  | _ => s

/-- Step 7, for block 0 (R92, R103): the lock store takes the new profile's fields in one update, the profile state becomes
pending. -/
def State.burnStep7 (b : Burn) (s : State) : State :=
  if b.block = 0 then
    { s with lock := b.newLock.getD s.lock, su.profState := .pending, mir.dirty := true }
  else s

/-- A burn VERIFY returned (R91). -/
def State.burnVerified (b : Burn) (matched : Bool) (sum : Sum16) (s : State) : State :=
  match b.held with
  | .s6 page _ bad =>
    let bad := bad || !matched
    if page < 15 then s.burnNext { b with held := .s6 (page + 1) sum bad }
    else if bad then s.burnEnd b 5 sum
    else (s.burnStep7 b).burnEnd b 1 sum
  | _ => s

/-! ## PF-DRAIN (R97) -/

/-- The slot returns to the front of the burn queue at step 1 (R97), and nothing of the burn is left behind: a BURN request that waits at the
arbiter is withdrawn (log 41). -/
def State.burnRequeue (b : Burn) (s : State) : State :=
  { s with
    img.slots := s.img.slots.set b.slot (.queued b.block)
    img.queue := b.slot :: s.img.queue
    img.burn := none
    flash.burn := []
    dram.waiting := s.dram.waiting.set .burn none }

/-- A burn job. -/
def Job.isBurn : Job → Bool
  | .burnBlank _ => true
  | .burnErase _ => true
  | .burnProgram _ _ _ => true
  | .burnVerify _ _ _ _ => true
  | _ => false

/-- A burn BLANK-CHECK or VERIFY, which PF-DRAIN entry stops at once (R76). -/
def Job.stopsAtDrain : Job → Bool
  | .burnBlank _ => true
  | .burnVerify _ _ _ _ => true
  | _ => false

/-- The Flash Operations Unit carries a burn's job: at the device, or as the suspended erase (R63, R72). -/
def Flash.carriesBurn (f : Flash) : Bool := f.current.any (·.job.isBurn) || f.suspended.any (·.job.isBurn)

/-- The slot returns to QUEUED when the burn's job has come back ABORTED (R97). -/
def State.awaitAborted (b : Burn) (s : State) : State := { s with img.burn := some { b with aborting := true } }

/-- The burn at PF-DRAIN entry (R76, R97): without a job in the unit, with one waiting, or with a BLANK-CHECK or VERIFY in
progress it is requeued at once. A fetch, a PROGRAM and an erase, running or suspended, return ABORTED when they end. -/
def State.stopBurn (s : State) : State :=
  match s.img.burn with
  | none => s
  | some b =>
    match b.act with
    | .idle => s.burnRequeue b
    | .reading _ _ => s.burnRequeue b
    | .fetching _ _ => s.awaitAborted b
    | .job =>
      if s.flash.current.any (·.job.stopsAtDrain) then ({ s with flash.current := none } : State).burnRequeue b
      else if s.flash.carriesBurn then s.awaitAborted b
      else s.burnRequeue b

/-- The result of a burn job reaches the burn: ABORTED requeues it (R97), any other goes to its step. -/
def State.burnTakes (f : Burn → State → State) (s : State) : State :=
  match s.img.burn with
  | none => s
  | some b => if b.aborting then s.burnRequeue b else f b s

end Sys2Proof.Machine
end

