-- ==== Sys2Proof/Machine/PowerOps.lean ====
section
/-! DEFINITION. Power states (R151 to R165), contact edges (R166 to R168): entries, wake causes, settled and drain conditions, self-refresh entry and exit. -/

namespace Sys2Proof.Machine

/-- The part starts work of its own: the main clock runs and no self-refresh entry has been requested (R156; log 15). -/
def State.working (s : State) : Bool := s.clockRuns && s.dram.entryReq.isNone

/-- Staging is open (R24, R37): by the power state alone. -/
def State.stagingOpen (s : State) : Bool := s.clockRuns && s.pow.state.commits

/-- A new power state; the mirror shows it (R151). -/
def State.setPower (p : PowerState) (s : State) : State := { s with pow.state := p, mir.dirty := true }

/-! ## Entries (R153, R160 to R162) -/

/-- Entry to SETTLING (R153). A payload write of SVP in carry finds its context empty (R15). -/
def State.enterSettling (s : State) : State :=
  let s := ((s.latchPayload .svp).abandonPort .svp causeSettle).setPower .settling
  ({ s with quiet.remaining := none } : State).settle

/-- Entry to ROUSED (R160): the relapse timer restarts. -/
def State.enterRoused (s : State) : State := ({ s.setPower .roused with pow.relapse := 0 } : State).settle

/-- The quiet timer's load at an entry to RUN (R170). -/
def quietLoad (p : Profile) : Option Nat := if p.quietInterval = 0 then none else some (p.quietInterval * 1000)

/-- Entry to RUN (R161, R170): the quiet timer takes a full interval, a paused burn goes on. -/
def State.enterRun (s : State) : State :=
  let s := s.setPower .run
  (State.resumeBurn { s with quiet.remaining := quietLoad s.prof }).settle

/-- The POWERFAIL record (R162): the staged counts at entry. Urgent. -/
def State.offerPowerfail (s : State) : State :=
  s.offerNow 0xF6#8 true (s.stg.rings.toList.map (fun r => numWord r.staged))

/-- Entry to PF-DRAIN (R162 from step 2, R76, R97). A payload write in carry finds its context empty (R16, R119). -/
def State.enterPfDrain (s : State) : State :=
  let s := (s.latchPayload .svp).latchPayload .mnp
  let s := ((s.offerPowerfail.abandonPort .svp causePfDrain).abandonPort .mnp causePfDrain).raise .power
  let s := s.setPower .pfDrain
  let s : State := { s with pow.entryPending := false, quiet.remaining := none }
  (s.abortErase.stopBurn).settle

/-- The scheduler returns to the start of a round (R40, R59). -/
def State.resetSched (s : State) : State := { s with com.sched := startOfRound s.prof }

/-- RUN or SETTLING by the level of LPREQ (R152). -/
def State.enterByLpreq (s : State) : State := if s.pow.lpreq then s.enterSettling else s.enterRun

/-- A pending entry to DOZE is cancelled (R157). -/
def State.cancelEntry (cause : Nat) (s : State) : State :=
  if s.pow.entryPending then ({ s with pow.entryPending := false } : State).offerDoze 2 cause else s

/-! ## Wake causes and contact edges (R159, R166, R167) -/

/-- A wake cause (R159): in DOZE the first is recorded, and self-refresh exit is requested. -/
def State.wake (cause : Nat) (s : State) : State :=
  if s.pow.state = .doze then
    { s with pow.wakeCause := some (s.pow.wakeCause.getD cause), dram.exitReq := true }
  else s

/-- An accepted edge in its capture slot (R167). -/
def capture (now : Time) (coarse level : Bool) : Option Capture → Capture
  | none => { level := level, count := 1, first := now, firstCoarse := coarse, last := now, lastCoarse := coarse }
  | some c => { c with level := level, count := saturate 65535 c.count 1, last := now, lastCoarse := coarse }

/-- An edge to `level` matches an edge mode (R166). -/
def EdgeMode.accepts : EdgeMode → Bool → Bool
  | .off, _ => false
  | .rise, level => level
  | .fall, level => !level
  | .both, _ => true

/-- An edge on an input, recognised unless the input is OFF, its debounce time runs, or the level is the tracked one
(R166); accepted edges are captured (R167), and one with wake-enable is a wake cause (R159). -/
def State.edge (i : ClassId) (level : Bool) (s : State) : State :=
  let cfg := s.prof.contacts.get i
  if cfg.mode = .off ∨ (s.con.debounce.get i).isSome ∨ s.con.tracked.get i = level then s
  else
    let s : State := { s with
      con.tracked := s.con.tracked.set i level
      con.debounce := s.con.debounce.set i (if cfg.debounce = 0 then none else some 0)
      mir.dirty := true }
    if cfg.mode.accepts level then
      let s : State := { s with
        con.slots := s.con.slots.set i (some (capture s.pow.time s.pow.coarse level (s.con.slots.get i))) }
      if cfg.wake then s.wake 2 else s
    else s

/-- A contact event between the commit point and DOZE is held (R156; log 15), unless it arrives while its input's debounce time
runs, in which case it is ignored (R166). -/
def State.contactEvent (i : ClassId) (level : Bool) (s : State) : State :=
  if s.dram.entryReq = some .doze ∧ s.con.debounce.get i = none then
    { s with pow.heldEvents := s.pow.heldEvents ++ [.contact i level] }
  else s.edge i level

/-- An event held since the commit point is taken as a DOZE event (R156). -/
def State.takeHeld (s : State) (e : HeldEvent) : State :=
  match e with
  | .lpreqReleased => s.wake 4
  | .pfwAsserted => s.wake 5
  | .mnpArrived => s.wake 1
  | .contact i level => s.edge i level

/-- The held events, in order. -/
def State.takeHeldAll (s : State) : State :=
  s.pow.heldEvents.foldl State.takeHeld { s with pow.heldEvents := [] }

/-! ## Captures (R168) -/

/-- A time in the two payload words of a CONTACT record, with its COARSE mark (R4, R193). -/
def timeWords (t : Time) (coarse : Bool) : List Word :=
  [t.setWidth 32, BitVec.ofNat 32 (t.toNat >>> 32 + flag 16 coarse)]

/-- The payload of a CONTACT record (R168). -/
def capturePayload (i : ClassId) (c : Capture) : List Word :=
  [numWord i.val, if c.level then 1#32 else 0#32, numWord c.count] ++ timeWords c.first c.firstCoarse ++ timeWords c.last c.lastCoarse

/-- The lowest input whose slot is held (R35). -/
def Contacts.firstHeld (c : Contacts) : Option ClassId :=
  if c.slots.c0.isSome then some 0 else if c.slots.c1.isSome then some 1 else if c.slots.c2.isSome then some 2
  else if c.slots.c3.isSome then some 3 else none

/-- One held slot is consumed, when the outbox has room (R168). -/
def State.consumeOne (s : State) : State :=
  match s.con.firstHeld with
  | some i =>
    match s.con.slots.get i with
    | some c =>
      if s.stg.outbox.length < 8 then
        ({ s with con.slots := s.con.slots.set i none } : State).offerNow 0xF1#8 false (capturePayload i c)
      else s
    | none => s
  | none => s

/-- Held slots are consumed in input order as the outbox has room (R35, R189). -/
def State.consumeAll (s : State) : State := s.consumeOne.consumeOne.consumeOne.consumeOne

/-! ## Settled, drained (R155, R163) -/

/-- The part is blocked (R155). -/
def State.blocked (s : State) : Bool := s.com.stalled && s.unclaimed 0 == 0

/-- No capture slot is held. -/
def Contacts.noneHeld (c : Contacts) : Bool := c.slots.toList.all Option.isNone

/-- Commit settled (R155): nothing queued, held, filling, closed or in flight, or a stall. -/
def State.commitSettled (s : State) : Bool :=
  (s.com.drained && s.stg.queue.isEmpty && s.com.held.isNone && !s.com.fillingHolds && s.com.closed.isEmpty && s.com.inflight.isNone)
  || s.com.stalled

/-- No slot is BURNING, or the burn is paused (R155). -/
def Image.settled (m : Image) : Bool :=
  match m.burn with
  | some b => b.paused
  | none => true

/-- MNP is idle (R154). -/
def State.mnpIdle (s : State) : Bool := decide (s.prof.relapseInterval ≤ s.pow.relapse) && s.ports.mnp.queue.isEmpty

/-- The settled conditions (R155). -/
def State.settled (s : State) : Bool :=
  (s.pow.state == .settling || s.pow.state == .roused)
  && s.commitSettled
  && s.flash.free
  && s.img.settled
  && (s.stg.outbox.isEmpty || s.blocked)
  && (s.con.noneHeld || s.blocked)
  && s.ctx.mnp.toList.all Option.isNone && s.mnpIdle
  && (s.pow.state != .settling || s.ports.svp.queue.isEmpty)

/-- The end of the power-fail drain (R163). An upkeep blank check or header read that waits is carried first, and so is a port read
that was dispatched to the flash before the entry to PF-DRAIN (R76, R119). -/
def State.drainEnds (s : State) : Bool :=
  s.pow.state == .pfDrain && s.drainFinished
  && (s.stg.outbox.isEmpty || s.unclaimed 0 == 0)
  && s.stg.queue.isEmpty
  && (s.con.noneHeld || s.stg.outbox.length == 8)
  && s.flash.free && s.flash.portReads.isEmpty && s.flash.upkeep.all Job.isErase

/-! ## Self-refresh (R147, R148, R156, R159, R163, R164) -/

/-- Self-refresh entry is requested (R147). -/
def State.requestEntry (why : EntryWhy) (s : State) : State := ({ s with dram.entryReq := some why } : State).beginEntry

/-- The DRAM enters self-refresh, every owed refresh paid (R147). -/
def State.sleepDram (s : State) : State :=
  { s.closeAll with
    dram.mode := .selfRefresh, dram.entryReq := none, dram.refresh := .none, dram.owed := 0
    dram.timerOn := false, dram.residency := 0 }

/-- The wake timer's load (R158). -/
def wakeLoad (p : Profile) : Option Nat := if p.wakeInterval = 0 then none else some 0

/-- The part sleeps in DOZE (R156): held events follow as DOZE events. -/
def State.enterDoze (s : State) : State :=
  let s := s.setPower .doze
  State.takeHeldAll { s with
    pow.coarse := true, pow.wakeTimer := wakeLoad s.prof, pow.wakeCause := none, pow.entryPending := false }

/-- The part halts in PF-HALT (R163); a PFW release during the entry is an exit request (R164). -/
def State.enterPfHalt (s : State) : State :=
  let s := s.setPower .pfHalt
  { s with pow.coarse := true, dram.exitReq := s.pow.heldExit, pow.heldExit := false }

/-- The DRAM leaves self-refresh (R148). The residency timer holds 0 outside self-refresh (log 8). -/
def State.wakeDram (s : State) : State :=
  State.reload { s with dram.mode := .usable, dram.owed := 0, dram.exitReq := false, dram.residency := 0 }

/-- The exit from DOZE (R159): clock, wake timer, the DOZE record with the recorded cause (log 14), the destination by the
levels. -/
def State.leaveDoze (s : State) : State :=
  let cause := s.pow.wakeCause.getD 0
  let s := State.offerDoze 2 cause { s with pow.coarse := false, pow.wakeTimer := none, pow.wakeCause := none }
  if s.pow.pfw then s.enterPfDrain else if s.pow.lpreq then s.enterRoused else s.enterRun

/-- The exit from PF-HALT (R164). -/
def State.leavePfHalt (s : State) : State :=
  let s : State := { s with pow.coarse := false }
  if s.pow.pfw then s.enterPfDrain else s.resetSched.enterByLpreq

end Sys2Proof.Machine
end

