-- ==== Sys2Proof/Machine/StartOps.lean ====
section
/-! DEFINITION. Start-up operations (R178 to R189): resets, the phases PROFILE to OPEN, mount, recovery. -/

namespace Sys2Proof.Machine

/-! ## Resets (R178, R179, R139, R149) -/

/-- DRAM contents once the grant in progress has been carried to its end (R139 step 1): a slot whose ring write was granted stands in
its ring, where recovery may accept it (R188; log 28). -/
def Dram.grantCarried (d : Dram) : List (Nat × Code) :=
  match d.grant with
  | some (.source _ q) => cellsAfter d.cells q
  | some (.writeBack off) => writeBackCells d.cells off
  | _ => d.cells

/-- The DRAM Controller at RESTART (R139, R149): with the DRAM-held mark the DRAM is in self-refresh with its contents, where
a residency that runs goes on; without it the DRAM is not brought up. -/
def State.restartDram (s : State) : Dram :=
  if s.su.dramHeld then
    { resetDram s.prof.banks s.dram.grantCarried .selfRefresh with
      residency := if s.dram.mode = .selfRefresh then s.dram.residency else 0 }
  else resetDram s.prof.banks s.dram.grantCarried .down

/-- A port at RESTART, power loss or power-on: the queue is emptied without a response, the bus keeps its requests (R122; log 31). -/
def PortState.reset (p : PortState) : PortState := { p with queue := [], carry := .untaken }

/-- The Power Control Unit at RESTART (R17, R151): the time base and the pins stay. -/
def Power.restart (p : Power) : Power :=
  { p with state := .starting, entryPending := false, wakeCause := none, wakeTimer := none, relapse := 0, heldEvents := [], heldExit := false }

/-- The Start-Up Controller at RESTART: the mark, the profile state and the release result stay (R178; log 28). -/
def StartUp.restart (u : StartUp) : StartUp :=
  { resetStartUp .restart with cause := 2, dramHeld := u.dramHeld, profState := u.profState, release := u.release }

/-- A held contact edge is taken; any other held event is not (R178). -/
def State.takeContact (s : State) (e : HeldEvent) : State :=
  match e with
  | .contact i level => s.edge i level
  | _ => s

/-- Contact edges still held at a RESTART are captured first, since the capture slots survive it (R178). -/
def State.captureHeld (s : State) : State := s.pow.heldEvents.foldl State.takeContact s

/-- Every block takes its RESTART values (R179). -/
def State.restart (s : State) : State :=
  let s := s.captureHeld.cutOffAll
  { s with
    ports := ⟨s.ports.svp.reset, s.ports.mnp.reset⟩
    ctx := ⟨Four.const none, Four.const none⟩
    stg := resetStaging
    com := resetCommit s.prof
    flash := resetFlash s.flash.cells
    img := resetImage
    dram := s.restartDram
    pow := s.pow.restart
    quiet := resetQuiet
    mir := resetMirror
    su := s.su.restart }

/-- Every block takes its power-on values; flash, lock store, pins and the buses stay, the DRAM is lost (R78, R139, R178; log 29). -/
def State.powerReset (supply : Supply) (s : State) : State :=
  let s := s.cutOffAll
  { s with
    ports := ⟨s.ports.svp.reset, s.ports.mnp.reset⟩
    ctx := ⟨Four.const none, Four.const none⟩
    stg := resetStaging
    com := resetCommit safeProfile
    flash := resetFlash s.flash.cells
    img := resetImage
    dram := resetDram safeProfile.banks [] .down
    pow := resetPower s.pow.lpreq s.pow.pfw s.pow.hot
    con := resetContacts s.con.pin
    quiet := resetQuiet
    mir := resetMirror
    su := resetStartUp supply
    prof := safeProfile }

/-- A reset ends (R104, R122, R179): the strap is sampled, the ports accept into empty queues, PROFILE begins with its READ of
block 0 (R181). The main clock runs, which ends coarse mode (R165). -/
def State.beginStartUp (strap : Bool) (s : State) : State :=
  { s with
    ports := ⟨s.ports.svp.unstallAll, s.ports.mnp.unstallAll⟩
    pow.coarse := false
    su.supply := .running, su.strap := strap, su.phase := .profile
    flash.startup := [.suProfile] }

/-! ## PROFILE (R181, R182, R169) -/

/-- The tracked level under a new profile (R169): an input that changes from OFF is sampled. -/
def retrack (old new : ContactCfg) (pin tracked : Bool) : Bool := if old.mode = .off ∧ new.mode ≠ .off then pin else tracked

/-- A profile comes into force with its state (R181, R169, R126): contact levels, open-row table. -/
def State.install (p : Profile) (k : ProfileState) (s : State) : State :=
  let t : State := State.closeAll { s with
    con.tracked := Four.build (fun i => retrack (s.prof.contacts.get i) (p.contacts.get i) (s.con.pin.get i) (s.con.tracked.get i))
    prof := p
    com.sched := startOfRound p
    su.profState := k }
  t.markIf (decide (s.su.profState ≠ k ∨ s.shownLevels ≠ t.shownLevels ∨ s.shownClasses ≠ t.shownClasses))

/-- The profile phase judges block 0 (R181, R182). -/
def State.loadProfile (s : State) : State :=
  match parseProfile (flashWords s.flash.cells 0 128) with
  | some p => s.install p .loaded
  | none => (s.install safeProfile .safe).raise .profile

/-! ## RELEASE and DRAM (R105, R106, R184) -/

/-- The DRAM phase begins (R184): self-refresh exit, or initialisation and fill. -/
def State.beginDram (s : State) : State :=
  if s.su.dramHeld then { s with su.phase := .dram, dram.exitReq := true }
  else { s with su.phase := .dram, dram.mode := .filling }

/-- The release result (R107), and on to the DRAM phase. -/
def State.releaseResult (code : Nat) (s : State) : State :=
  State.beginDram (({ s with su.release := code } : State).markIf (decide (s.su.release ≠ code)))

/-- LOCK and RELEASE (R183, R105): passed over without the strap, refused PROTECT, or the blank checks begin at block 1. -/
def State.beginRelease (s : State) : State :=
  if !s.su.strap then s.releaseResult 0
  else if s.lock.imageErase || s.lock.bootRewrite then s.releaseResult 2
  else { s with su.phase := .release, flash.startup := [.suBlank 1] }

/-- A granted release clears the store in one update (R106). -/
def State.grantRelease (s : State) : State := State.releaseResult 1 { s with lock := manufactureLock, mir.dirty := true }

/-- A blank check of the release phase returned (R105). -/
def State.releaseChecked (block : Nat) (blank : Bool) (s : State) : State :=
  if !blank then s.releaseResult 3
  else if block < 255 then { s with flash.startup := [.suBlank (block + 1)] }
  else s.grantRelease

/-! ## OPEN (R189) -/

/-- The payload of the START record (R4). -/
def State.startPayload (s : State) : List Word :=
  [numWord s.su.cause, numWord s.su.profState.code, numWord s.su.release, numWord s.su.mountResult]
  ++ s.su.recovered.toList.map numWord

/-- The power state leaves STARTING (R152, R154). -/
def State.leaveStarting (s : State) : State :=
  let s : State := { s with pow.relapse := 0 }
  if s.pow.pfw then s.enterPfDrain else s.enterByLpreq

/-- The OPEN phase (R189). -/
def State.openPhase (s : State) : State :=
  let s := (s.offerFront (partRecord 0xF0#8 true s.stamp s.startPayload)).raise .start
  let s := s.consumeAll
  State.leaveStarting { s with su.ready := true, su.phase := .done, su.recovery := none }

/-! ## RECOVERY (R188) -/

/-- DRAM word offset of the ring slot of a sequence (R25). -/
def State.slotOff (s : State) (c : ClassId) (q : Seq) : Nat :=
  let k := s.prof.classes.get c
  k.base / 4 + q.toNat % k.capacity * 16

/-- Recovery reads a slot (R188). -/
def State.readSlot (c : ClassId) (q : Seq) (s : State) : State :=
  ({ s with su.recovery := some { cls := c, seq := q } } : State).present .stager (.read (s.slotOff c q) 16)

/-- Recovery goes on at the next configured class, or start-up opens. -/
def State.recoverAfter (c : ClassId) (s : State) : State :=
  let (d, wrapped) := nextClass s.prof c
  if wrapped then s.openPhase else s.readSlot d (s.stg.rings.get d).next

/-- RECOVERY begins at class 0, which every profile configures (R2, R188); a cold start passes it over. -/
def State.beginRecovery (s : State) : State :=
  if s.su.warm then State.readSlot 0 (s.stg.rings.get 0).next { s with su.phase := .recovery } else s.openPhase

/-- A slot is accepted into the staged run and the commit queue (R188). -/
def State.recoverRecord (c : ClassId) (q : Seq) (s : State) : State :=
  let r := s.stg.rings.get c
  { s with
    stg.rings := s.stg.rings.set c { r with next := q + 1#32, staged := r.staged + 1 }
    com.queues := s.com.queues.set c (s.com.queues.get c ++ [q])
    su.recovered := s.su.recovered.set c (s.su.recovered.get c + 1)
    mir.dirty := true }

/-- The recovery read of a slot has been judged (R188). -/
def State.recoverSlot (c : ClassId) (q : Seq) (accepted : Bool) (s : State) : State :=
  if accepted then
    let s := s.recoverRecord c q
    if (s.stg.rings.get c).staged = (s.prof.classes.get c).capacity then s.recoverAfter c else s.readSlot c (q + 1#32)
  else s.recoverAfter c

/-! ## MOUNT (R185 to R187) -/

/-- MOUNT begins (R185). -/
def State.beginMount (warm : Bool) (s : State) : State :=
  { s with su.phase := .mount, su.warm := warm, su.mount := resetMount, flash.startup := [.suPage 256 0] }

/-- The class mount gave a block: a block not listed is ERASED. -/
def Mount.classAt (m : Mount) (block : Nat) : PageClass :=
  match m.seen.find? (fun x => x.1 == block) with
  | some (_, k) => k
  | none => .erased

/-- The newest lead among the blocks read so far, in increasing block order (R186). -/
def newestLead : List (Nat × PageClass) → Option (Nat × Seq) → Option (Nat × Seq)
  | [], best => best
  | (b, .valid h) :: rest, some (c, q) => newestLead rest (if newer h.seq q then some (b, h.seq) else some (c, q))
  | (b, .valid h) :: rest, none => newestLead rest (some (b, h.seq))
  | _ :: rest, best => newestLead rest best

/-- The ring state of the configured classes from the mount (R21). -/
def mountRings (p : Profile) (placed : Four Seq) (mask : Four Bool) : Four ClassRing :=
  Four.build (fun c =>
    if (p.classes.get c).configured then
      let r : ClassRing := { next := 0#32, committed := placed.get c, present := mask.get c, staged := 0, reserved := 0 }
      { r with next := r.firstUncommitted }
    else emptyRing)

/-- Committed and placed sequences from the mount (R21, R39, R186). -/
def State.mountClasses (placed : Four Seq) (mask : Four Bool) (s : State) : State :=
  { s with
    stg.rings := mountRings s.prof placed mask
    com.placedSeq := placed, com.placedPresent := mask
    mir.dirty := s.mir.dirty || decide (s.stg.rings ≠ mountRings s.prof placed mask) }

/-- The oldest retained page sequence from the mount (R187): the lead of the tail block when it is VALID. -/
def State.mountOldest (s : State) : Option Seq :=
  match s.su.mount.classAt s.com.tail with
  | .valid h => some h.seq
  | _ => none

/-- MOUNT ends (R187), and recovery follows. -/
def State.endMount (s : State) : State :=
  State.beginRecovery (({ s with com.oldest := s.mountOldest } : State).markIf (decide (s.com.oldest ≠ s.mountOldest)))

/-- The block that the erased-ahead run would take next (R187). -/
def State.nextAhead (s : State) : Nat := ringNext (ringSkip [] s.com.ahead s.com.headBlock)

/-- The run grows while it is short and the next block is ERASED, by a blank check each (R187). -/
def State.growRun (s : State) : State :=
  let s : State := { s with su.mount.stage := .spare }
  if s.com.ahead < s.prof.spareTarget ∧ s.su.mount.classAt s.nextAhead = .erased then
    { s with flash.startup := [.suBlank s.nextAhead] }
  else s.endMount

/-- The head block that mount found (R47, R186, R187). -/
def State.setHeadBlock (block : Nat) (s : State) : State :=
  ({ s with com.headBlock := block } : State).markIf (decide (s.com.headBlock ≠ block))

/-- The head page that mount found (R47, R186, R187). -/
def State.setHeadPage (page : Nat) (s : State) : State :=
  ({ s with com.headPage := page } : State).markIf (decide (s.com.headPage ≠ page))

/-- No block is VALID (R187): the journal is empty and block 256 is blank-checked. -/
def State.mountEmpty (s : State) : State :=
  let s := (s.mountClasses (Four.const 0#32) (Four.const false)).setHeadBlock 256
  { s with
    com.nextPage := 1#32, com.begun := false
    su.mountResult := 2, su.mount.stage := .first
    flash.startup := [.suBlank 256] }

/-- The head block is found (R186): its pages 1 to 15 are read. -/
def State.mountHead (block : Nat) (s : State) : State :=
  let s := s.setHeadBlock block
  { s with
    com.begun := true
    su.mountResult := 1, su.mount.stage := .pages, su.mount.pages := [s.su.mount.classAt block]
    flash.startup := [.suPage block 1] }

/-- Page 0 of every block has been read (R186, R187). -/
def State.mountLeadsDone (s : State) : State :=
  match newestLead s.su.mount.seen none with
  | some (b, _) => s.mountHead b
  | none => s.mountEmpty

/-- A lead page has been read (R185). -/
def State.mountLead (block : Nat) (k : PageClass) (s : State) : State :=
  let s : State := if k = .erased then s else { s with su.mount.seen := s.su.mount.seen ++ [(block, k)] }
  if block < 2047 then { s with flash.startup := [.suPage (block + 1) 0] } else s.mountLeadsDone

/-- What the pages of the head block say so far (R186): last valid header, pages neither valid nor erased after it, head page. -/
structure HeadScan where
  last : Option PageHeader
  torn : Nat
  head : Nat
deriving DecidableEq, Repr

/-- One more page, number `i`, of the head block. -/
def HeadScan.page (x : HeadScan) (i : Nat) : PageClass → HeadScan
  | .erased => x
  | .valid h => { last := some h, torn := 0, head := i + 1 }
  | .neither => { x with torn := x.torn + 1, head := i + 1 }

/-- The pages of the head block in order, from page `i`. -/
def scanPages : Nat → List PageClass → HeadScan → HeadScan
  | _, [], x => x
  | i, k :: ks, x => scanPages (i + 1) ks (x.page i k)

/-- All pages of the head block have been read (R186). -/
def State.mountPagesDone (s : State) : State :=
  let x := scanPages 0 s.su.mount.pages { last := none, torn := 0, head := 0 }
  match x.last with
  | some h =>
    let s := (s.mountClasses h.placed h.mask).setHeadPage x.head
    State.growRun { s with com.nextPage := h.seq + 1#32 + BitVec.ofNat 32 x.torn }
  | none => s.mountEmpty

/-- A page of the head block has been read (R186). -/
def State.mountPage (block page : Nat) (k : PageClass) (s : State) : State :=
  let s : State := { s with su.mount.pages := s.su.mount.pages ++ [k] }
  if page < 15 then { s with flash.startup := [.suPage block (page + 1)] } else s.mountPagesDone

/-- A READ job of mount ended (R185, R186). -/
def State.mountRead (block page : Nat) (k : PageClass) (s : State) : State :=
  match s.su.mount.stage with
  | .leads => s.mountLead block k
  | .pages => s.mountPage block page k
  | _ => s

/-- A blank check of mount returned (R187). -/
def State.mountChecked (blank : Bool) (s : State) : State :=
  match s.su.mount.stage with
  | .first => (s.setHeadPage (if blank then 0 else 16)).growRun
  | .spare => if blank then State.growRun { s with com.ahead := s.com.ahead + 1, mir.dirty := true } else s.endMount
  | _ => s

/-- A start-up BLANK-CHECK returned (R68): to field release or to mount. -/
def State.startChecked (block : Nat) (blank : Bool) (s : State) : State :=
  match s.su.phase with
  | .release => s.releaseChecked block blank
  | .mount => s.mountChecked blank
  | _ => s

end Sys2Proof.Machine
end

