-- ==== Sys2Proof/Machine/CommitEngine.lean ====
section
/-! DEFINITION. The Commit Engine's commands (R40, R43, R46, R48, R55). -/

namespace Sys2Proof.Machine

/-- The conditions of a scheduler choice (R40), with no fetch in progress. -/
def State.choiceDue (s : State) : Bool :=
  s.working && s.pow.state.commits && s.com.filling.isSome && s.com.held.isNone && s.com.fetching.isNone

/-- SCHEDULER_CHOICE (R40 to R43). -/
def execSchedulerChoice (s : State) : Host.Outcome State Fault Refusal :=
  .next (if s.choiceDue then
      match chooseClass s with
      | (d, some c) =>
        match s.com.queues.get c with
        | q :: _ => ({ s with com.sched := d, com.fetching := some { cls := c, seq := q, alg := s.alg } } : State).present
            .commit (.read (s.slotOff c q) 16)
        | [] => s
      | (_, none) => s
    else s)

/-- The candidate a slot read gives: the record, or the DAMAGED stand-in with the raw opening word (R43). -/
def State.candidateOf (s : State) (f : Fetch) (rs : List (Nat × EccResult)) (raw : Word) : Candidate :=
  { alg := f.alg
    body := if slotDamaged rs f.seq then standIn f.cls f.seq s.stamp raw else placedOf f.cls f.seq (dataOf rs) }

/-- What DWRR says of a fetched candidate (R42): a turn that is no longer in progress drops it (log 22), one whose deficit is
too small ends with the deficit kept. -/
inductive DwrrCheck where
  | take
  | endTurn
  | stale
deriving DecidableEq, Repr

/-- The DWRR check of a candidate; SP and WRR take every candidate. -/
def dwrrCheck (d : Sched) (x : Candidate) : DwrrCheck :=
  match x.alg with
  | .dwrr =>
    if !d.begun || d.pos != x.body.cls then .stale
    else if d.deficits.get x.body.cls < x.body.size then .endTurn
    else .take
  | _ => .take

/-- A fetched candidate is placed or held, or leaves its turn (R42, R44). -/
def State.candidate (x : Candidate) (s : State) : State :=
  let s : State := { s with com.fetching := none }
  match dwrrCheck s.com.sched x with
  | .take => State.settle { s with com := s.com.arrive s.prof x }
  | .endTurn => { s with com.sched := s.com.sched.move s.prof .dwrr }
  | .stale => s

/-- CANDIDATE_READ_COMPLETE (R43, R44). -/
def execCandidateReadComplete (s : State) : Host.Outcome State Fault Refusal :=
  .next (match s.dram.grant, s.com.fetching with
    | some (.source .commit q), some f =>
      let rs := readsOf s.dram.cells q
      let raw := codeData (readCell dramDefault s.dram.cells q.span.1)
      ((s.carryOut q).endGrant).candidate (s.candidateOf f rs raw)
    | _, _ => s)

/-- FLUSH_DEADLINE_EXPIRY (R46): the time up to the deadline passes (log 3), and the buffer closes by DEADLINE. -/
def execFlushDeadlineExpiry (s : State) : Host.Outcome State Fault Refusal :=
  .next (match s.com.filling with
    | some f =>
      if s.clockRuns && !f.recs.isEmpty then
        let s := s.pass (s.prof.flushDeadline - f.flush)
        State.settle { s with com := s.com.close .deadline }
      else s
    | none => s)

/-- GO_IN_FLIGHT (R48, R50, R54). A change of the head marks the mirror dirty (R47). -/
def execGoInFlight (s : State) : Host.Outcome State Fault Refusal :=
  .next (if s.working && s.pow.state.commits && s.com.mustProgram && s.com.headAvailable then
      let moves := decide (16 ≤ s.com.headPage)
      ((((({ s with com := s.com.launchNext } : State).markIf moves).noteResume).offerPage)).settle
    else s)

/-- UPKEEP_ERASE_REQUEST (R55, R58). -/
def execUpkeepEraseRequest (s : State) : Host.Outcome State Fault Refusal :=
  .next (if s.working && s.upkeepDue then { s with flash.upkeep := [.upErase s.com.tail] } else s)

end Sys2Proof.Machine
end

