-- ==== Sys2Proof/WellFormed.lean ====
section
/-! DEFINITION. Which terms of `Instr` a sender can issue: a request as R109 allows it, device operands inside the device. -/

namespace Sys2Proof

/-- A request a master can present (R109): word address, burst length 1, 2, 4 or 8, L words of data for a write and none for a read. -/
def Request.wf (r : Request) : Bool :=
  decide (r.addr.toNat % 4 = 0) &&
  (r.len == 1 || r.len == 2 || r.len == 4 || r.len == 8) &&
  decide (r.data.length = if r.write then r.len else 0)

/-- Flips lie in the largest geometry, 1 GiB or 2^28 words (R123). -/
def Upset.wf (u : Upset) : Bool := decide (u.offset < 268435456)

/-- A defect of a page program lies in the page, one of a block erase in the block (R62). -/
def Defect.wf (words : Nat) (d : Defect) : Bool := decide (d.word < words)

/-- The commands a sender can issue. Every command without such operands is well formed. -/
def Instr.wf : Instr → Bool
  | .portRequestArrival r => r.wf
  | .programEnd ds => ds.all (Defect.wf 64)
  | .eraseEnd ds => ds.all (Defect.wf 1024)
  | .arbiterChoice us => us.all Upset.wf
  | .powerOn
  | .powerLoss
  | .restartAsserted
  | .restartReleased _
  | .coldFillEnd
  | .recoveryReadComplete
  | .plainRead _
  | .plainWrite _
  | .mirrorRead _
  | .acknowledgeWrite _
  | .openingWord _
  | .payloadWord _
  | .journalBurst _
  | .imageRead _
  | .imageWrite _
  | .flashRead _
  | .directionRefusal _
  | .nowindow _
  | .assemblyLimitExpiry _ _
  | .ringWriteStart
  | .ringWriteComplete
  | .outboxDeparture
  | .captureConsumed
  | .schedulerChoice
  | .candidateReadComplete
  | .flushDeadlineExpiry
  | .goInFlight
  | .upkeepEraseRequest
  | .jobStart
  | .readJobEnd
  | .blankCheckEnd
  | .verifyEnd
  | .flashTimeout
  | .eraseSuspension
  | .eraseAbortEnd
  | .sourceFetchComplete
  | .slotFillComplete
  | .imageIdleExpiry _
  | .burnStart
  | .burnShadowReadComplete
  | .portDramGrantEnd
  | .writeBackEnd
  | .patrolReadEnd
  | .refreshTimerExpiry
  | .urgentRefresh
  | .trickleRefresh
  | .refreshEnd
  | .hotChange _
  | .selfRefreshEntered
  | .selfRefreshExit
  | .lpreqAsserted
  | .lpreqReleased
  | .pfwAsserted
  | .pfwReleased
  | .relapseTimerExpiry
  | .dozeAnnouncement
  | .dozeCommitPoint
  | .wakeTimerExpiry
  | .drainEnd
  | .contactEdge _ _
  | .debounceEnd _
  | .quietExpiry
  | .svrstPulseEnd
  | .mirrorWriteStart
  | .mirrorWriteComplete
  | .powerOnResetEnd _
  | .powerGatingRefusal _
  | .portOrSplitRefusal _
  | .mirrorWriteRefusal _
  | .journalOffsetRangeRefusal _
  | .partRequestGrantEnd => true

end Sys2Proof
end

