-- ==== Sys2Proof/Machine/DramUnit.lean ====
section
/-! DEFINITION. The DRAM Controller's commands: arbiter, scrub, refresh, self-refresh (R129, R134, R141 to R148), HOT. -/

namespace Sys2Proof.Machine

/-- The arbiter may choose: the DRAM is free and no urgent refresh is due (R129, R143). -/
def State.arbiterFree (s : State) : Bool := s.clockRuns && s.dramFree && decide (s.dram.owed < s.prof.urgentThreshold)

/-- Flips inside the geometry (R123). -/
def upsetsWithin (p : Profile) (us : List Upset) : List Upset := us.filter (fun u => decide (u.offset < geometryWords p))

/-- ARBITER_CHOICE (R129 to R131): bits may have flipped in the device since its last grant (log 10). -/
def execArbiterChoice (us : List Upset) (s : State) : Host.Outcome State Fault Refusal :=
  if us.all Upset.wf then
    if s.arbiterFree then
      match nextGrant s.prof s.dram with
      | some g =>
        if g.span.1 + g.span.2 ≤ geometryWords s.prof then
          .next (State.beginGrant g { s with dram.cells := applyUpsets s.dram.cells (upsetsWithin s.prof us) })
        else .fault .outsideGeometry
      | none => .next s
    else .next s
  else .refused .illFormed

/-- A word a write-back reads Uncorrectable counts and raises FAULT; a Corrected one changes no count (R134, R136). -/
def badOnly (rs : List (Nat × EccResult)) : List (Nat × EccResult) := rs.filter (·.2.bad)

/-- WRITE_BACK_END (R134). -/
def execWriteBackEnd (s : State) : Host.Outcome State Fault Refusal :=
  .next (match s.dram.grant with
    | some (.writeBack off) =>
      let rs := badOnly (readDram s.dram.cells off 1)
      let s : State := { s with
        dram.cells := writeBackCells s.dram.cells off
        dram.correction := s.dram.correction.tail }
      ((s.eccRead false rs).faultRecord scrubCode rs).endGrant
    | _ => s)

/-- PATROL_READ_END (R145, R146). -/
def execPatrolReadEnd (s : State) : Host.Outcome State Fault Refusal :=
  .next (match s.dram.grant with
    | some (.patrol off) =>
      let rs := readDram s.dram.cells off 8
      let s : State := { s with
        dram.patrol := s.dram.patrol - 1
        dram.scrub := scrubNext s.prof s.dram.scrub }
      ((s.eccRead true rs).faultRecord scrubCode rs).endGrant
    | _ => s)

/-- A lost refresh (R142). -/
def State.loseRefresh (s : State) : State :=
  (({ s with dram.lostRefresh := saturate 65535 s.dram.lostRefresh 1 } : State).raise .fault).offerRefreshLost

/-- REFRESH_TIMER_EXPIRY (R142). -/
def execRefreshTimerExpiry (s : State) : Host.Outcome State Fault Refusal :=
  .next (if s.dram.timerOn then
      if s.dram.owed < 8 then State.reload { s with dram.owed := s.dram.owed + 1 } else s.loseRefresh.reload
    else s)

/-- An urgent refresh is due (R143). -/
def State.urgentDue (s : State) : Bool := decide (s.prof.urgentThreshold ≤ s.dram.owed)

/-- Rows close and the urgent sequence begins (R143). -/
def State.beginUrgent (s : State) : State := { s.closeAll with dram.refresh := .urgent }

/-- URGENT_REFRESH (R143). -/
def execUrgentRefresh (s : State) : Host.Outcome State Fault Refusal :=
  .next (if s.clockRuns && s.dramFree && s.urgentDue then s.beginUrgent else s)

/-- TRICKLE_REFRESH (R144). -/
def execTrickleRefresh (s : State) : Host.Outcome State Fault Refusal :=
  .next (if s.arbiterFree && decide (0 < s.dram.owed) && !s.dram.anyWaiting then
      { s.closeAll with dram.refresh := .trickle }
    else s)

/-- The patrol reads a trickle refresh hands out (R145). -/
def patrolShare (hot : Bool) : Nat := if hot then 2 else 1

/-- REFRESH_END (R142 to R145, R147): a trickle refresh hands out patrol reads, and an urgent refresh that fell due while it ran follows it
at once, whatever waits (R143; log 39); a sequence ends when nothing is owed. -/
def execRefreshEnd (s : State) : Host.Outcome State Fault Refusal :=
  .next (match s.dram.refresh with
    | .none => s
    | .trickle =>
      let paid : State := { s with
        dram.owed := s.dram.owed - 1
        dram.patrol := saturate 2 s.dram.patrol (patrolShare s.pow.hot)
        dram.refresh := .none }
      if s.urgentDue then paid.beginUrgent else paid.beginEntry
    | .urgent => State.beginEntry { s with
        dram.owed := s.dram.owed - 1
        dram.refresh := if s.dram.owed ≤ 1 then .none else .urgent }
    | .entry => { s with
        dram.owed := s.dram.owed - 1
        dram.refresh := if s.dram.owed ≤ 1 then .none else .entry })

/-- HOT_CHANGE (R141): the level is read at the next reload. -/
def execHotChange (level : Bool) (s : State) : Host.Outcome State Fault Refusal :=
  .next { s with pow.hot := level }

/-- SELF_REFRESH_ENTERED (R147, R156, R163): rows are closed, what is still owed is paid, and the part sleeps. The entry waits until
the ring write queue is empty (R24). -/
def execSelfRefreshEntered (s : State) : Host.Outcome State Fault Refusal :=
  .next (if s.stg.queue.isEmpty && s.dram.grant.isNone && (s.dram.refresh == .none || s.dram.refresh == .entry) then
      match s.dram.entryReq with
      | some .doze => s.sleepDram.enterDoze
      | some .halt => s.sleepDram.enterPfHalt
      | none => s
    else s)

/-- SELF_REFRESH_EXIT (R148, R159, R164, R184): the rest of the residency passes (log 3). -/
def execSelfRefreshExit (s : State) : Host.Outcome State Fault Refusal :=
  .next (if s.su.supply == .running && s.dram.mode == .selfRefresh && s.dram.exitReq then
      let s := (s.pass (1 - s.dram.residency)).wakeDram
      match s.pow.state with
      | .starting => s.beginMount true
      | .doze => s.leaveDoze
      | .pfHalt => s.leavePfHalt
      | _ => s
    else s)

end Sys2Proof.Machine
end

