-- ==== Sys2Proof/Machine/Edges.lean ====
section
/-! DEFINITION. Contacts, the quiet timer and SVRST, the mirror writer (R166 to R174). -/

namespace Sys2Proof.Machine

/-- CONTACT_EDGE (R166, R167): the level of the pin changes; without supply nothing more. -/
def execContactEdge (i : ClassId) (level : Bool) (s : State) : Host.Outcome State Fault Refusal :=
  .next (if s.con.pin.get i = level then s
    else
      let s : State := { s with con.pin := s.con.pin.set i level }
      if s.su.supply = .off then s else s.contactEvent i level)

/-- DEBOUNCE_END (R166): the rest of the debounce time passes (log 3), and a level that differs from the tracked one is an edge
now. A debounce time that runs over RESTART runs to the length that the new profile gives its input (log 34). -/
def execDebounceEnd (i : ClassId) (s : State) : Host.Outcome State Fault Refusal :=
  .next (match s.con.debounce.get i with
    | some t =>
      let s := s.pass ((s.prof.contacts.get i).debounce - t)
      let s : State := { s with con.debounce := s.con.debounce.set i none }
      if s.con.pin.get i = s.con.tracked.get i then s else s.contactEvent i (s.con.pin.get i)
    | none => s)

/-- QUIET_EXPIRY (R171): the rest of the interval passes (log 3). A payload write of SVP in carry finds its context empty. -/
def execQuietExpiry (s : State) : Host.Outcome State Fault Refusal :=
  .next (match s.quiet.remaining with
    | some r =>
      if s.clockRuns && s.pow.state == .run then
        let s := (s.pass r).latchPayload .svp
        let count := saturate 65535 s.quiet.count 1
        let s := ({ s with quiet.count := count } : State).mark.offerNow 0xF3#8 false [numWord count]
        let s := (({ s with quiet.pulse := some 0 } : State).abandonPort .svp causeSvrst).raise .quiet
        { s with quiet.remaining := some (s.prof.quietInterval * 1000) }
      else s
    | none => s)

/-- SVRST_PULSE_END (R172): the rest of the 10 ms passes (log 3). -/
def execSvrstPulseEnd (s : State) : Host.Outcome State Fault Refusal :=
  .next (match s.quiet.pulse with
    | some t => { s.pass (10 - t) with quiet.pulse := none }
    | none => s)

end Sys2Proof.Machine
end

