-- ==== Sys2Proof/Machine/FlashUnit.lean ====
section
/-! DEFINITION. The Flash Operations Unit's commands (R65 to R78). -/

namespace Sys2Proof.Machine

/-- The job at the device (R63). -/
def Flash.currentJob (f : Flash) : Option Job := f.current.map (·.job)

/-- The job at the device, unless it is an erase that PF-DRAIN entry stopped (R76; log 21). -/
def Flash.running (f : Flash) : Option Running :=
  match f.current with
  | some r => if r.abortReq then none else some r
  | none => none

/-- The job of `Flash.running`. -/
def Flash.runningJob (f : Flash) : Option Job := f.running.map (·.job)

/-- FLASH_READ (R71, R72). -/
def execFlashRead (p : Port) (s : State) : Host.Outcome State Fault Refusal :=
  .next (match s.taking p with
    | .flashRead word => (s.take p).offerPortRead p word (s.front p).len
    | _ => s)

/-- No journal erase starts: in PF-DRAIN (R76), and while the JOURNAL-RETAIN forbid is set (R58). -/
def State.noJournalErase (s : State) : Bool := s.pow.state == .pfDrain || s.lock.journalRetain

/-- JOB_START (R70): in DOZE and PF-HALT no job starts (R77). -/
def execJobStart (s : State) : Host.Outcome State Fault Refusal :=
  .next (if s.working && s.flash.free then
      match s.flash.takeNext s.noJournalErase with
      | some (j, f) => { s with flash := { f with current := some (Running.start j) } }
      | none => s
    else s)

/-- A flash READ of a port ended: the request is answered with the words (R71). -/
def State.portReadEnd (p : Port) (word len : Nat) (s : State) : State := s.answer p (.done (flashWords s.flash.cells word len))

/-- READ_JOB_END (R65, R71, R57, R181, R185): the words go to whoever offered the job, and a suspended erase resumes (R72). -/
def execReadJobEnd (s : State) : Host.Outcome State Fault Refusal :=
  .next (match s.flash.currentJob with
    | some (.portRead p word len) => (s.portReadEnd p word len).finishJob
    | some (.upHeader b) => s.finishJob.upkeepHeader (flashPage s.flash.cells b 0)
    | some .suProfile => s.finishJob.loadProfile.beginRelease
    | some (.suPage b page) => s.finishJob.mountRead b page (classifyPage (flashPage s.flash.cells b page))
    | _ => s)

/-- A page program finished: every word programmed (R62), but for the words the device left at another value (log 10). -/
def State.programPage (block page : Nat) (words : List Word) (ds : List Defect) (s : State) : State :=
  { s with flash.cells :=
      applyDefects (programWords s.flash.cells (flashAddr block page 0) words) (flashAddr block page 0) ds }

/-- PROGRAM_END (R66): a journal VERIFY becomes eligible, a burn goes on, or returns its slot in PF-DRAIN (R76). -/
def execProgramEnd (ds : List Defect) (s : State) : Host.Outcome State Fault Refusal :=
  if ds.all (Defect.wf 64) then
    .next (match s.flash.currentJob with
      | some (.pageProgram b p) => (s.programPage b p s.pageSource ds).finishJob
      | some (.burnProgram b p ws) => (s.programPage b p ws ds).finishJob.burnTakes State.burnProgrammed
      | _ => s)
  else .refused .illFormed

/-- An erase finished: every word of the block erased (R62), but for the words the device left at another value (log 10). -/
def State.erasedBlock (block : Nat) (ds : List Defect) (s : State) : State :=
  { s with flash.cells := applyDefects (eraseBlock s.flash.cells block) (block * 1024) ds }

/-- ERASE_END (R69, R56, R89): upkeep or the burn offers its blank check. -/
def execEraseEnd (ds : List Defect) (s : State) : Host.Outcome State Fault Refusal :=
  if ds.all (Defect.wf 1024) then
    .next (match s.flash.runningJob with
      | some (.upErase b) => { (s.erasedBlock b ds).finishJob with flash.upkeep := [.upBlank b] }
      | some (.burnErase b) => (s.erasedBlock b ds).finishJob.burnTakes (fun x s => s.burnNext { x with held := .s4Blank })
      | _ => s)
  else .refused .illFormed

/-- BLANK_CHECK_END (R68): to upkeep (R56), to the burn (R89), to field release or mount (R105, R187). -/
def execBlankCheckEnd (s : State) : Host.Outcome State Fault Refusal :=
  .next (match s.flash.currentJob with
    | some (.upBlank b) =>
      (if blockBlank s.flash.cells b then s.finishJob.upkeepJoined else s.finishJob.upkeepFailed b)
    | some (.burnBlank b) => s.finishJob.burnTakes (fun x s => s.burnBlanked x (blockBlank s.flash.cells b))
    | some (.suBlank b) => s.finishJob.startChecked b (blockBlank s.flash.cells b)
    | _ => s)

/-- A journal VERIFY returned: the page is confirmed or has failed (R49, R50). -/
def State.pageVerified (matched : Bool) (s : State) : State :=
  match s.com.inflight with
  | some f => (if matched then s.confirmPage f else s.failPage f).settle
  | none => s

/-- VERIFY_END (R67): the page read is compared with its source and its checksum continued. -/
def execVerifyEnd (s : State) : Host.Outcome State Fault Refusal :=
  .next (match s.flash.currentJob with
    | some (.pageVerify b p) => s.finishJob.pageVerified (flashPage s.flash.cells b p == s.pageSource)
    | some (.burnVerify b p ws start) =>
      let read := flashPage s.flash.cells b p
      s.finishJob.burnTakes (fun x s => s.burnVerified x (read == ws) (checksum start (bytesOf read)))
    | _ => s)

/-- A journal PROGRAM timed out: its VERIFY is discarded and the page has failed (R70, R50). -/
def State.pageTimedOut (s : State) : State :=
  let s : State := { s with flash.journal := [] }
  match s.com.inflight with
  | some f => (s.failPage f).settle
  | none => s

/-- The job that reached its limit is stopped (R74): contents cut off, device free, result TIMEOUT to its requester. A burn PROGRAM that was
in progress at a PF-DRAIN entry returns ABORTED instead (log 40). -/
def State.timedOut (j : Job) (s : State) : State :=
  let s := (s.cutOff j).finishJob
  match j with
  | .pageProgram _ _ => s.pageTimedOut
  | .upErase b => s.upkeepFailed b
  | _ => s.burnTakes (fun x s => s.burnEnd x 6 0#16)

/-- FLASH_TIMEOUT (R74): the running time up to the limit passes (log 3). -/
def execFlashTimeout (s : State) : Host.Outcome State Fault Refusal :=
  .next (match s.flash.running with
    | some r =>
      match r.job.limit with
      | some lim => (s.pass (lim - r.time)).timedOut r.job
      | none => s
    | none => s)

/-- The block an erase job works on. -/
def Job.erased : Job → Option Nat
  | .upErase b => some b
  | .burnErase b => some b
  | _ => none

/-- The running time has reached the job's limit (R74). -/
def Running.expired (r : Running) : Bool := r.job.limit.any (fun lim => decide (lim ≤ r.time))

/-- ERASE_SUSPENSION (R72, R73). An erase at its limit ends by TIMEOUT and is not suspended (R74). A suspension requested before the
entry to PF-DRAIN may still take effect after it, and the erase is aborted when its read has ended (log 27). -/
def execEraseSuspension (s : State) : Host.Outcome State Fault Refusal :=
  .next (match s.flash.current, s.flash.portReads with
    | some r, j :: rest =>
      match r.job.erased with
      | some b =>
        if r.suspendReq && !r.expired then
          { s.leaveErase b with
            flash.suspended := some { r with suspendReq := false, suspensions := r.suspensions + 1 }
            flash.current := some (Running.start j)
            flash.portReads := rest }
        else s
      | none => s
    | _, _ => s)

/-- The erase that is to end ABORTED: running, or suspended once the read carried in its suspension has ended (R76; log 27). -/
def Flash.aborting (f : Flash) : Option Running :=
  match f.current, f.suspended with
  | some r, _ => if r.abortReq then some r else none
  | none, some r => if r.abortReq then some r else none
  | none, none => none

/-- ERASE_ABORT_END (R76, R97): the block is left neither erased nor intact, the device is free, a burn's slot is requeued. -/
def execEraseAbortEnd (s : State) : Host.Outcome State Fault Refusal :=
  .next (match s.flash.aborting with
    | some r =>
      let s : State := { s.cutOff r.job with flash.current := none, flash.suspended := none }
      match r.job with
      | .burnErase _ => s.burnTakes (fun _ s => s)
      | _ => s
    | none => s)

end Sys2Proof.Machine
end

