-- ==== Sys2Proof/Machine/Images.lean ====
section
/-! DEFINITION. The image and burn commands (R81 to R94), and the end of one request of a sequence (R125). -/

namespace Sys2Proof.Machine

/-- IMAGE_READ (R81): it waits for an allocating write of the other port to the block (R83). -/
def execImageRead (p : Port) (s : State) : Host.Outcome State Fault Refusal :=
  .next (match s.imageTaking p with
    | .imageRead b w => if s.fillAhead p b then s.waitImage p else (s.takeImage p).imageReadAt p b w (s.front p).len
    | _ => s)

/-- IMAGE_WRITE (R82, R83): it waits for a write of the other port to the block, and for an access that has waited longer. -/
def execImageWrite (p : Port) (s : State) : Host.Outcome State Fault Refusal :=
  .next (match s.imageTaking p with
    | .imageWrite b w => if s.writeAhead p b then s.waitImage p else (s.takeImage p).imageWriteAt p b w
    | _ => s)

/-- The port whose grant is in progress, its carry and its request. -/
def State.portInGrant (s : State) : Option (Port × Carry × DramReq) :=
  match s.dram.grant with
  | some (.source .svp q) => some (.svp, s.ports.svp.carry, q)
  | some (.source .mnp q) => some (.mnp, s.ports.mnp.carry, q)
  | _ => none

/-- SLOT_FILL_COMPLETE (R83): the allocating write ends. -/
def execSlotFillComplete (s : State) : Host.Outcome State Fault Refusal :=
  .next (match s.portInGrant with
    | some (p, .fill i 64, q) => s.storeEnd p i q
    | _ => s)

/-- IMAGE_IDLE_EXPIRY (R85): the time up to the limit passes (log 3), and the slot is abandoned. -/
def execImageIdleExpiry (i : SlotId) (s : State) : Host.Outcome State Fault Refusal :=
  .next (match s.img.slots.get i with
    | .opened b t =>
      if s.clockRuns && s.pow.state == .run && !s.slotInCarry i then
        (s.pass (s.prof.imageIdle * 1000 - t)).burnResult i b 8 0#16
      else s
    | _ => s)

/-- A burn as it starts (R86). -/
def newBurn (i : SlotId) (block : Nat) : Burn :=
  { slot := i, block := block, held := .s1, act := .idle, paused := false, aborting := false, newLock := none }

/-- Step 1 (R87): the lock check; step 2 follows for block 0, step 3 for any other. -/
def State.burnStep1 (b : Burn) (s : State) : State :=
  if imageForbidden s.lock b.block then s.burnEnd b 2 0#16
  else s.burnNext { b with held := if b.block = 0 then .s2 else .s3 }

/-- The grant in progress of the BURN requester. -/
def State.burnGrant (s : State) : Option DramReq :=
  match s.dram.grant with
  | some (.source .burn q) => some q
  | _ => none

/-- BURN_START (R86, R87). While a grant of the BURN requester is in progress, for a burn that was requeued meanwhile, no burn
starts: the requester presents its next request only when that grant has ended (R125). -/
def execBurnStart (s : State) : Host.Outcome State Fault Refusal :=
  .next (match s.img.queue with
    | i :: rest =>
      match s.img.slots.get i with
      | .queued b =>
        if s.working && s.pow.state == .run && s.img.burn.isNone && s.burnGrant.isNone then
          State.burnStep1 (newBurn i b) { s with
            img.slots := s.img.slots.set i (.burning b)
            img.queue := rest
            img.burn := some (newBurn i b) }
        else s
      | _ => s
    | [] => s)

/-- What the grant in progress is for: the burn in progress, unless that burn has a request of its own still waiting. -/
def State.burnInGrant (s : State) : Option Burn := if (s.dram.waiting.get .burn).isNone then s.img.burn else none

/-- BURN_SHADOW_READ_COMPLETE (R88, R90): the last request of a shadow reading, or the first that finds an uncorrectable word
(log 13). -/
def execBurnShadowReadComplete (s : State) : Host.Outcome State Fault Refusal :=
  .next (match s.burnGrant, s.burnInGrant with
    | some q, some b =>
      match b.act with
      | .reading k ws =>
        let rs := readsOf s.dram.cells q
        if anyBad rs then ((s.carryOut q).endGrant).burnEnd b 7 0#16
        else if k = 63 then ((s.carryOut q).endGrant).burnRead b (ws ++ dataOf rs)
        else s
      | _ => s
    | _, _ => s)

/-- The source of a burn job has been fetched (R66, R67): the job joins the burn list, or ends SOURCE-FAULT; a burn that
PF-DRAIN stopped is requeued (R97). -/
def State.fetched (b : Burn) (bad : Bool) (words : List Word) (s : State) : State :=
  if b.aborting then s.burnRequeue b
  else if bad then s.burnEnd b 7 0#16
  else match b.fetchedJob words with
    | some j => s.offerBurnJob b j
    | none => s

/-- SOURCE_FETCH_COMPLETE (R66): the last request of a source fetch, or the first that finds an uncorrectable word (log 13). -/
def execSourceFetchComplete (s : State) : Host.Outcome State Fault Refusal :=
  .next (match s.burnGrant, s.burnInGrant with
    | some q, some b =>
      match b.act with
      | .fetching k ws =>
        let rs := readsOf s.dram.cells q
        if anyBad rs || k == 3 then ((s.carryOut q).endGrant).fetched b (anyBad rs) (ws ++ dataOf rs)
        else s
      | _ => s
    | _, _ => s)

/-! ## One request of a sequence ends (R125) -/

/-- A fill request of a slot ends and the next is presented: another sixteen words, or the port's own write (R83). -/
def State.fillNext (p : Port) (i : SlotId) (k : Nat) (q : DramReq) (s : State) : State :=
  let s := ((s.carryOut q).endGrant).setCarry p (.fill i (k + 1))
  s.present (Source.ofPort p)
    (if k + 1 < 64 then .write (s.shadowOff i (16 * (k + 1))) fillWords else s.storeReq p i (s.imageTarget p).2)

/-- The word of a slot that a source fetch begins at (R66, R67). -/
def Burn.fetchPage (b : Burn) : Nat :=
  match b.held with
  | .s5 (some (page :: _)) => page
  | .s6 page _ _ => page
  | _ => 0

/-- A clean read of a burn's sequence ends before the last and the next is presented (R125). -/
def State.burnReadNext (b : Burn) (q : DramReq) (s : State) : State :=
  let rs := readsOf s.dram.cells q
  match b.act with
  | .reading k ws =>
    if anyBad rs || k == 63 then s
    else ({ (s.carryOut q).endGrant with img.burn := some { b with act := .reading (k + 1) (ws ++ dataOf rs) } } : State).present
      .burn (s.shadowRead b.slot (k + 1))
  | .fetching k ws =>
    if anyBad rs || k == 3 then s
    else ({ (s.carryOut q).endGrant with img.burn := some { b with act := .fetching (k + 1) (ws ++ dataOf rs) } } : State).present
      .burn (s.shadowRead b.slot (4 * b.fetchPage + k + 1))
  | _ => (s.carryOut q).endGrant

/-- First word and length of mirror request `k` (R174). -/
def mirrorSpan : Nat → Nat × Nat
  | 0 => (0, 1)
  | 1 => (1, 15)
  | 2 => (16, 16)
  | 3 => (32, 16)
  | 4 => (48, 14)
  | _ => (63, 1)

/-- Mirror request `k` of a copy (R174). -/
def State.mirrorReq (s : State) (copy : List Word) (k : Nat) : DramReq :=
  .write (s.prof.mirrorOffset / 4 + (mirrorSpan k).1) ((copy.drop (mirrorSpan k).1).take (mirrorSpan k).2)

/-- A mirror request before the last ends and the next is presented (R174). -/
def State.mirrorNext (w : MirrorWrite) (q : DramReq) (s : State) : State :=
  ({ (s.carryOut q).endGrant with mir.write := some { w with k := w.k + 1 } } : State).present
    .mirror (s.mirrorReq w.copy (w.k + 1))

/-- PART_REQUEST_GRANT_END (R125): slot fill, burn shadow read, source fetch, mirror write. A BURN grant whose burn has gone
ends with its ECC effects alone (log 13). -/
def execPartRequestGrantEnd (s : State) : Host.Outcome State Fault Refusal :=
  .next (match s.dram.grant with
    | some (.source .burn q) =>
      match s.burnInGrant with
      | some b => s.burnReadNext b q
      | none => (s.carryOut q).endGrant
    | some (.source .mirror q) =>
      match s.mir.write with
      | some w => if w.k < 5 then s.mirrorNext w q else s
      | none => s
    | _ =>
      match s.portInGrant with
      | some (p, .fill i k, q) => if k < 64 then s.fillNext p i k q else s
      | _ => s)

end Sys2Proof.Machine
end

