-- ==== Sys2Proof/Machine/Journal.lean ====
section
/-! DEFINITION. The journal window commands (R6 to R14). -/

namespace Sys2Proof.Machine

/-- A journal write is answered once (R11). -/
def State.journalAnswer (p : Port) (x : Option Reason × State) : State := x.2.answer p (journalResponse x.1)

/-- OPENING_WORD (R8, R9). -/
def execOpeningWord (p : Port) (s : State) : Host.Outcome State Fault Refusal :=
  .next (match s.taking p with
    | .opening c => State.journalAnswer p ((s.take p).openRecord p c (wholeWord (s.front p)) (wordAt (s.front p).data 0))
    | _ => s)

/-- PAYLOAD_WORD (R10, R12). -/
def execPayloadWord (p : Port) (s : State) : Host.Outcome State Fault Refusal :=
  .next (match s.taking p with
    | .payload c k => State.journalAnswer p ((s.take p).putPayload p c k (wholeWord (s.front p)) (wordAt (s.front p).data 0))
    | _ => s)

/-- JOURNAL_BURST (R11): byte enables do not matter in a burst (R111). -/
def execJournalBurst (p : Port) (s : State) : Host.Outcome State Fault Refusal :=
  .next (match s.taking p with
    | .burst c k => State.journalAnswer p ((s.take p).journalWords p c k (s.front p).data)
    | _ => s)

/-- JOURNAL_OFFSET_RANGE_REFUSAL (R6). -/
def execJournalOffsetRangeRefusal (p : Port) (s : State) : Host.Outcome State Fault Refusal :=
  .next (match s.taking p with
    | .offRange => s.refuseNow p .range
    | _ => s)

/-- ASSEMBLY_LIMIT_EXPIRY (R13): the time up to the limit passes (log 3), and the record is abandoned. -/
def execAssemblyLimitExpiry (p : Port) (c : ClassId) (s : State) : Host.Outcome State Fault Refusal :=
  .next (match s.context p c with
    | some x =>
      if s.clockRuns && decide (s.prof.assemblyLimit ≠ 0) then
        (s.pass (s.prof.assemblyLimit - x.elapsed)).abandon p c causeLimit
      else s
    | none => s)

end Sys2Proof.Machine
end

