-- ==== Sys2Proof/Machine/MirrorUnit.lean ====
section
/-! DEFINITION. The Mirror Writer's commands (R173 to R175). -/

namespace Sys2Proof.Machine

/-- Step 1 and the recording of causes of step 2 (R174): the generation rises, dirty clears, waiting causes are recorded. -/
def State.openMirror (s : State) : State :=
  let gen := s.mir.gen + 1#32
  { s with mir.gen := gen, mir.dirty := false, mir.attention := s.mir.attention.map (AttState.record gen) }

/-- MIRROR_WRITE_START (R174, R175): the copy is taken and the first request presented, also between a request for
self-refresh entry and the sleep, while the DRAM is usable. No write starts before OPEN (R173, R180). -/
def execMirrorWriteStart (s : State) : Host.Outcome State Fault Refusal :=
  .next (if s.clockRuns && s.pow.state != .starting && s.dram.mode == .usable && s.mir.dirty && s.mir.write.isNone then
      let s := s.openMirror
      let copy := s.mirrorWords
      ({ s with mir.write := some { copy := copy, k := 0 } } : State).present .mirror (s.mirrorReq copy 0)
    else s)

/-- MIRROR_WRITE_COMPLETE (R174): the grant of word 63 ends. -/
def execMirrorWriteComplete (s : State) : Host.Outcome State Fault Refusal :=
  .next (match s.dram.grant, s.mir.write with
    | some (.source .mirror q), some w =>
      if w.k = 5 then
        { (s.carryOut q).endGrant with mir.last := some s.mir.gen, mir.write := none }
      else s
    | _, _ => s)

end Sys2Proof.Machine
end

