-- ==== Sys2Proof/Machine/Ports.lean ====
section
/-! DEFINITION. The port commands (R109 to R122): arrival, DRAM accesses, the acknowledge word, the refusals of the Port Interface Unit. A command whose conditions do not hold changes nothing (log 2). -/

namespace Sys2Proof.Machine

/-- A request stalls on its bus, or joins the queue when it has a place and the ports accept (R110, R122). -/
def PortState.arrive (accepting : Bool) (r : Request) (ps : PortState) : PortState :=
  if accepting && ps.bus.isEmpty && decide (ps.queue.length < 4) then { ps with queue := ps.queue ++ [r] }
  else { ps with bus := ps.bus ++ [r] }

/-- An MNP request that joins the queue in DOZE is a wake cause (R120, R159); between the commit point and DOZE it is held (R156). -/
def State.mnpJoined (s : State) : State :=
  if s.dram.entryReq = some .doze then { s with pow.heldEvents := s.pow.heldEvents ++ [.mnpArrived] } else s.wake 1

/-- PORT_REQUEST_ARRIVAL (R110). -/
def execPortRequestArrival (r : Request) (s : State) : Host.Outcome State Fault Refusal :=
  if r.wf then
    let s' := s.setPort r.port ((s.ports.get r.port).arrive s.accepting r)
    .next (if r.port = .mnp ∧ (s.ports.get r.port).queue.length < (s'.ports.get r.port).queue.length then s'.mnpJoined else s')
  else .refused .illFormed

/-- A port access goes to the DRAM Controller through the port's requester (R115). -/
def State.portDram (p : Port) (c : Carry) (q : DramReq) (s : State) : State :=
  ((s.take p).setCarry p c).present (Source.ofPort p) q

/-- PLAIN_READ (R115). -/
def execPlainRead (p : Port) (s : State) : Host.Outcome State Fault Refusal :=
  .next (match s.taking p with
    | .plainRead off => s.portDram p .plain (.read off (s.front p).len)
    | _ => s)

/-- PLAIN_WRITE (R111, R115). -/
def execPlainWrite (p : Port) (s : State) : Host.Outcome State Fault Refusal :=
  .next (match s.taking p with
    | .plainWrite off => s.portDram p .plain (writeReq off (s.front p))
    | _ => s)

/-- MIRROR_READ (R116). -/
def execMirrorRead (p : Port) (s : State) : Host.Outcome State Fault Refusal :=
  .next (match s.taking p with
    | .mirrorRead off => s.portDram p .plain (.read off (s.front p).len)
    | _ => s)

/-- The DRAM write of the acknowledge word has been carried: the Mirror Writer acts on its value and the port is answered
DONE (R116, R177). -/
def State.ackEnd (p : Port) (q : DramReq) (s : State) : State :=
  (State.acknowledge (wordAt (s.front p).data 0) (s.carryOut q).endGrant).answer p (.done [])

/-- The grant in progress of a port, with how its request stands. -/
def State.portGrant (s : State) (p : Port) : Option (Carry × DramReq) :=
  match s.dram.grant with
  | some (.source w q) => if w = Source.ofPort p then some ((s.ports.get p).carry, q) else none
  | _ => none

/-- ACKNOWLEDGE_WRITE (R116, R177): taken, the write goes to the DRAM; issued again when its grant is in progress, the write
is stored and acted on (log 12). -/
def execAcknowledgeWrite (p : Port) (s : State) : Host.Outcome State Fault Refusal :=
  .next (match s.portGrant p with
    | some (.ack, q) => s.ackEnd p q
    | _ =>
      match s.taking p with
      | .ackWrite off => s.portDram p .ack (.write off (s.front p).data)
      | _ => s)

/-- DIRECTION_REFUSAL (R115). -/
def execDirectionRefusal (p : Port) (s : State) : Host.Outcome State Fault Refusal :=
  .next (match s.taking p with
    | .direction => s.refuseNow p .direction
    | _ => s)

/-- NOWINDOW (R114). -/
def execNowindow (p : Port) (s : State) : Host.Outcome State Fault Refusal :=
  .next (match s.taking p with
    | .nowindow => s.refuseNow p .nowindow
    | _ => s)

/-- POWER_GATING_REFUSAL (R119). -/
def execPowerGatingRefusal (p : Port) (s : State) : Host.Outcome State Fault Refusal :=
  .next (match s.taking p with
    | .gated r => s.refuseNow p r
    | _ => s)

/-- PORT_OR_SPLIT_REFUSAL (R114). -/
def execPortOrSplitRefusal (p : Port) (s : State) : Host.Outcome State Fault Refusal :=
  .next (match s.taking p with
    | .portOrSplit r => s.refuseNow p r
    | _ => s)

/-- MIRROR_WRITE_REFUSAL (R116). -/
def execMirrorWriteRefusal (p : Port) (s : State) : Host.Outcome State Fault Refusal :=
  .next (match s.taking p with
    | .mirrorRefusal r => s.refuseNow p r
    | _ => s)

/-- The answer to a port's DRAM access (R117, R136): FAULT for an uncorrectable word, else DONE with the words read. -/
def dramAnswer (write : Bool) (rs : List (Nat × EccResult)) : Response :=
  if anyBad rs then .refused .fault else if write then .done [] else .done (dataOf rs)

/-- A plain access of a port ends (R117, R135, R136). -/
def State.plainEnd (p : Port) (q : DramReq) (s : State) : State :=
  let rs := readsOf s.dram.cells q
  let a := dramAnswer (s.front p).write rs
  (((s.carryOut q).endGrant).faultRecord (portCode p) rs).answer p a

/-- The grant of a port's last DRAM request ends. The fill of a slot has its own commands (R83). -/
def State.portGrantEnd (p : Port) (s : State) : State :=
  match s.portGrant p with
  | some (.plain, q) => s.plainEnd p q
  | some (.ack, q) => s.ackEnd p q
  | some (.store i, q) => s.storeEnd p i q
  | _ => s

/-- PORT_DRAM_GRANT_END (R117). -/
def execPortDramGrantEnd (s : State) : Host.Outcome State Fault Refusal :=
  .next (match s.dram.grant with
    | some (.source .svp _) => s.portGrantEnd .svp
    | some (.source .mnp _) => s.portGrantEnd .mnp
    | _ => s)

end Sys2Proof.Machine
end

