-- ==== Sys2Proof/Machine/PowerStates.lean ====
section
/-! DEFINITION. The Power Control Unit's commands (R152 to R164). Without supply and in reset only the level of a pin changes (log 29). -/

namespace Sys2Proof.Machine

/-- LPREQ_ASSERTED (R152, R153). -/
def execLpreqAsserted (s : State) : Host.Outcome State Fault Refusal :=
  .next (if s.pow.lpreq then s
    else
      let s : State := { s with pow.lpreq := true }
      if s.pow.state = .run then s.enterSettling else s)

/-- LPREQ_RELEASED (R152, R157, R159). -/
def execLpreqReleased (s : State) : Host.Outcome State Fault Refusal :=
  .next (if s.pow.lpreq then
      let s : State := { s with pow.lpreq := false }
      if s.pow.state = .settling ∨ s.pow.state = .roused then
        if s.dram.entryReq = some .doze then { s with pow.heldEvents := s.pow.heldEvents ++ [.lpreqReleased] }
        else (s.cancelEntry 4).enterRun
      else s.wake 4
    else s)

/-- Power states that PFW takes to PF-DRAIN (R152). -/
def PowerState.drainable : PowerState → Bool
  | .run => true
  | .settling => true
  | .roused => true
  | _ => false

/-- PFW_ASSERTED (R152, R157, R159, R162). -/
def execPfwAsserted (s : State) : Host.Outcome State Fault Refusal :=
  .next (if s.pow.pfw then s
    else
      let s : State := { s with pow.pfw := true }
      if s.pow.state.drainable then
        if s.dram.entryReq = some .doze then { s with pow.heldEvents := s.pow.heldEvents ++ [.pfwAsserted] }
        else (s.cancelEntry 5).enterPfDrain
      else s.wake 5)

/-- PFW_RELEASED (R152, R163, R164). -/
def execPfwReleased (s : State) : Host.Outcome State Fault Refusal :=
  .next (if s.pow.pfw then
      let s : State := { s with pow.pfw := false }
      match s.pow.state with
      | .pfDrain =>
        if s.dram.entryReq.isSome then { s with pow.heldExit := true } else s.resetSched.enterByLpreq
      | .pfHalt => { s with dram.exitReq := true }
      | _ => s
    else s)

/-- RELAPSE_TIMER_EXPIRY (R154): the time up to the interval passes (log 3). -/
def execRelapseTimerExpiry (s : State) : Host.Outcome State Fault Refusal :=
  .next (if s.clockRuns && s.pow.state.relapseCounts then s.pass (s.prof.relapseInterval - s.pow.relapse) else s)

/-- DOZE_ANNOUNCEMENT (R156 stage 1). -/
def execDozeAnnouncement (s : State) : Host.Outcome State Fault Refusal :=
  .next (if s.working && s.settled && !s.pow.entryPending then
      ({ s with pow.entryPending := true } : State).offerDoze 1 0
    else s)

/-- DOZE_COMMIT_POINT (R156 stage 2): it waits for the ring write queue too, which a stalled commit does not empty (R24, R158). -/
def execDozeCommitPoint (s : State) : Host.Outcome State Fault Refusal :=
  .next (if s.working && s.settled && s.stg.queue.isEmpty && s.pow.entryPending then s.requestEntry .doze else s)

/-- WAKE_TIMER_EXPIRY (R158): the time up to the interval passes (log 3), and the expiry is a wake cause. -/
def execWakeTimerExpiry (s : State) : Host.Outcome State Fault Refusal :=
  .next (if s.pow.state = .doze then
      match s.pow.wakeTimer with
      | some t => (s.pass (s.prof.wakeInterval * 1000 - t)).wake 3
      | none => s
    else s)

/-- DRAIN_END (R163). -/
def execDrainEnd (s : State) : Host.Outcome State Fault Refusal :=
  .next (if s.working && s.drainEnds then s.requestEntry .halt else s)

end Sys2Proof.Machine
end

