-- ==== Sys2Proof/Machine/StagingUnit.lean ====
section
/-! DEFINITION. The Staging Unit's commands (R24, R25, R32) and the consumption of a capture (R168). -/

namespace Sys2Proof.Machine

/-- The 16-word slot write of a record (R25, R27). -/
def State.slotWrite (s : State) (e : RingEntry) (q : Seq) : DramReq := .write (s.slotOff e.cls q) (slotWords e.body q)

/-- RING_WRITE_START (R24, R25 steps 1 to 3). -/
def execRingWriteStart (s : State) : Host.Outcome State Fault Refusal :=
  .next (match s.stg.queue with
    | e :: _ =>
      if s.stagingOpen && s.stg.writing.isNone then
        let q := (s.stg.rings.get e.cls).next
        ({ s with stg.writing := some q } : State).present .stager (s.slotWrite e q)
      else s
    | [] => s)

/-- Ring counts after a ring write (R25 step 4). -/
def ClassRing.written (r : ClassRing) : ClassRing :=
  { r with next := r.next + 1#32, staged := r.staged + 1, reserved := r.reserved - 1 }

/-- The last-staged sequence of the context a port record came from (R30). -/
def lastStaged (last : PerPort (Four (Option Seq))) (e : RingEntry) (q : Seq) : PerPort (Four (Option Seq)) :=
  match e.port with
  | some p => last.set p ((last.get p).set e.cls (some q))
  | none => last

/-- Step 4 of R25: everything changes together. -/
def State.recordStaged (e : RingEntry) (q : Seq) (s : State) : State :=
  { s with
    stg.rings := s.stg.rings.set e.cls (s.stg.rings.get e.cls).written
    stg.queue := s.stg.queue.tail
    stg.writing := none
    stg.last := lastStaged s.stg.last e q
    com.queues := s.com.queues.set e.cls (s.com.queues.get e.cls ++ [q])
    mir.dirty := true }

/-- RING_WRITE_COMPLETE (R25 step 4). A self-refresh entry that waited for the last ring write goes on (R24, R147). -/
def execRingWriteComplete (s : State) : Host.Outcome State Fault Refusal :=
  .next (match s.dram.grant, s.stg.writing, s.stg.queue with
    | some (.source .stager req), some q, e :: _ => ((((s.carryOut req).endGrant).recordStaged e q).beginEntry).settle
    | _, _, _ => s)

/-- A part record of class 0 leaves the outbox for the ring write queue with a reservation (R32). -/
def State.depart (r : Record) (rest : List Record) (s : State) : State :=
  let s := s.reserve 0
  State.lostRecord { s with
    stg.outbox := rest
    stg.queue := s.stg.queue ++ [{ cls := 0, port := none, body := r }]
    mir.dirty := true }

/-- OUTBOX_DEPARTURE (R32, R34). -/
def execOutboxDeparture (s : State) : Host.Outcome State Fault Refusal :=
  .next (match s.stg.outbox with
    | r :: rest => if s.stagingOpen && decide (1 ≤ s.unclaimed 0) then s.depart r rest else s
    | [] => s)

/-- CAPTURE_CONSUMED (R168, R35): the lowest held input. -/
def execCaptureConsumed (s : State) : Host.Outcome State Fault Refusal :=
  .next (if s.su.supply == .running && s.pow.state != .doze && s.pow.state != .starting then s.consumeOne else s)

end Sys2Proof.Machine
end

