-- ==== Sys2Proof/Machine/StartUnit.lean ====
section
/-! DEFINITION. The Start-Up Controller's commands (R137, R178, R179, R188). -/

namespace Sys2Proof.Machine

/-- POWER_ON (R178): power-on reset begins. -/
def execPowerOn (s : State) : Host.Outcome State Fault Refusal := .next (s.powerReset .powerOnReset)

/-- POWER_LOSS (R78, R122, R139): everything but flash, lock store, pins and buses is lost. -/
def execPowerLoss (s : State) : Host.Outcome State Fault Refusal := .next (s.powerReset .off)

/-- RESTART_ASSERTED (R179). -/
def execRestartAsserted (s : State) : Host.Outcome State Fault Refusal :=
  .next (if s.su.supply = .running then s.restart else s)

/-- RESTART_RELEASED (R179, R104). -/
def execRestartReleased (strap : Bool) (s : State) : Host.Outcome State Fault Refusal :=
  .next (if s.su.supply = .restart then s.beginStartUp strap else s)

/-- POWER_ON_RESET_END (R179, R104). -/
def execPowerOnResetEnd (strap : Bool) (s : State) : Host.Outcome State Fault Refusal :=
  .next (if s.su.supply = .powerOnReset then s.beginStartUp strap else s)

/-- The cold fill has ended (R137, R150): every word zero with zero check bits, rows closed, eight refreshes owed. Words beyond
the geometry that is filled read the same, should a later profile reach them (log 6). -/
def State.filled (s : State) : State :=
  State.reload { s.closeAll with dram.cells := [], dram.mode := .usable, dram.owed := 8, su.dramHeld := true }

/-- COLD_FILL_END (R137, R184, R185). -/
def execColdFillEnd (s : State) : Host.Outcome State Fault Refusal :=
  .next (if s.su.supply == .running && s.dram.mode == .filling then s.filled.beginMount false else s)

/-- RECOVERY_READ_COMPLETE (R188, R136). -/
def execRecoveryReadComplete (s : State) : Host.Outcome State Fault Refusal :=
  .next (match s.dram.grant, s.su.recovery with
    | some (.source .stager q), some r =>
      let rs := readsOf s.dram.cells q
      (((s.carryOut q).endGrant).faultRecord stagerCode rs).recoverSlot r.cls r.seq (slotAccepted rs r.seq)
    | _, _ => s)

end Sys2Proof.Machine
end

