-- ==== Sys2Proof/Machine/Dispatch.lean ====
section
/-! DEFINITION. Each command to its meaning: its effect on everything but the queue. -/

namespace Sys2Proof.Machine

/-- The effect of a command on everything but the queue. -/
def exec (i : Instr) (s : State) : Host.Outcome State Fault Refusal :=
  match i with
  | .powerOn => Sys2Proof.Machine.execPowerOn s
  | .powerLoss => Sys2Proof.Machine.execPowerLoss s
  | .restartAsserted => Sys2Proof.Machine.execRestartAsserted s
  | .restartReleased strap => Sys2Proof.Machine.execRestartReleased strap s
  | .coldFillEnd => Sys2Proof.Machine.execColdFillEnd s
  | .recoveryReadComplete => Sys2Proof.Machine.execRecoveryReadComplete s
  | .portRequestArrival r => Sys2Proof.Machine.execPortRequestArrival r s
  | .plainRead p => Sys2Proof.Machine.execPlainRead p s
  | .plainWrite p => Sys2Proof.Machine.execPlainWrite p s
  | .mirrorRead p => Sys2Proof.Machine.execMirrorRead p s
  | .acknowledgeWrite p => Sys2Proof.Machine.execAcknowledgeWrite p s
  | .openingWord p => Sys2Proof.Machine.execOpeningWord p s
  | .payloadWord p => Sys2Proof.Machine.execPayloadWord p s
  | .journalBurst p => Sys2Proof.Machine.execJournalBurst p s
  | .imageRead p => Sys2Proof.Machine.execImageRead p s
  | .imageWrite p => Sys2Proof.Machine.execImageWrite p s
  | .flashRead p => Sys2Proof.Machine.execFlashRead p s
  | .directionRefusal p => Sys2Proof.Machine.execDirectionRefusal p s
  | .nowindow p => Sys2Proof.Machine.execNowindow p s
  | .assemblyLimitExpiry p c => Sys2Proof.Machine.execAssemblyLimitExpiry p c s
  | .ringWriteStart => Sys2Proof.Machine.execRingWriteStart s
  | .ringWriteComplete => Sys2Proof.Machine.execRingWriteComplete s
  | .outboxDeparture => Sys2Proof.Machine.execOutboxDeparture s
  | .captureConsumed => Sys2Proof.Machine.execCaptureConsumed s
  | .schedulerChoice => Sys2Proof.Machine.execSchedulerChoice s
  | .candidateReadComplete => Sys2Proof.Machine.execCandidateReadComplete s
  | .flushDeadlineExpiry => Sys2Proof.Machine.execFlushDeadlineExpiry s
  | .goInFlight => Sys2Proof.Machine.execGoInFlight s
  | .upkeepEraseRequest => Sys2Proof.Machine.execUpkeepEraseRequest s
  | .jobStart => Sys2Proof.Machine.execJobStart s
  | .readJobEnd => Sys2Proof.Machine.execReadJobEnd s
  | .programEnd ds => Sys2Proof.Machine.execProgramEnd ds s
  | .eraseEnd ds => Sys2Proof.Machine.execEraseEnd ds s
  | .blankCheckEnd => Sys2Proof.Machine.execBlankCheckEnd s
  | .verifyEnd => Sys2Proof.Machine.execVerifyEnd s
  | .flashTimeout => Sys2Proof.Machine.execFlashTimeout s
  | .eraseSuspension => Sys2Proof.Machine.execEraseSuspension s
  | .eraseAbortEnd => Sys2Proof.Machine.execEraseAbortEnd s
  | .sourceFetchComplete => Sys2Proof.Machine.execSourceFetchComplete s
  | .slotFillComplete => Sys2Proof.Machine.execSlotFillComplete s
  | .imageIdleExpiry k => Sys2Proof.Machine.execImageIdleExpiry k s
  | .burnStart => Sys2Proof.Machine.execBurnStart s
  | .burnShadowReadComplete => Sys2Proof.Machine.execBurnShadowReadComplete s
  | .arbiterChoice us => Sys2Proof.Machine.execArbiterChoice us s
  | .portDramGrantEnd => Sys2Proof.Machine.execPortDramGrantEnd s
  | .writeBackEnd => Sys2Proof.Machine.execWriteBackEnd s
  | .patrolReadEnd => Sys2Proof.Machine.execPatrolReadEnd s
  | .refreshTimerExpiry => Sys2Proof.Machine.execRefreshTimerExpiry s
  | .urgentRefresh => Sys2Proof.Machine.execUrgentRefresh s
  | .trickleRefresh => Sys2Proof.Machine.execTrickleRefresh s
  | .refreshEnd => Sys2Proof.Machine.execRefreshEnd s
  | .hotChange level => Sys2Proof.Machine.execHotChange level s
  | .selfRefreshEntered => Sys2Proof.Machine.execSelfRefreshEntered s
  | .selfRefreshExit => Sys2Proof.Machine.execSelfRefreshExit s
  | .lpreqAsserted => Sys2Proof.Machine.execLpreqAsserted s
  | .lpreqReleased => Sys2Proof.Machine.execLpreqReleased s
  | .pfwAsserted => Sys2Proof.Machine.execPfwAsserted s
  | .pfwReleased => Sys2Proof.Machine.execPfwReleased s
  | .relapseTimerExpiry => Sys2Proof.Machine.execRelapseTimerExpiry s
  | .dozeAnnouncement => Sys2Proof.Machine.execDozeAnnouncement s
  | .dozeCommitPoint => Sys2Proof.Machine.execDozeCommitPoint s
  | .wakeTimerExpiry => Sys2Proof.Machine.execWakeTimerExpiry s
  | .drainEnd => Sys2Proof.Machine.execDrainEnd s
  | .contactEdge k level => Sys2Proof.Machine.execContactEdge k level s
  | .debounceEnd k => Sys2Proof.Machine.execDebounceEnd k s
  | .quietExpiry => Sys2Proof.Machine.execQuietExpiry s
  | .svrstPulseEnd => Sys2Proof.Machine.execSvrstPulseEnd s
  | .mirrorWriteStart => Sys2Proof.Machine.execMirrorWriteStart s
  | .mirrorWriteComplete => Sys2Proof.Machine.execMirrorWriteComplete s
  | .powerOnResetEnd strap => Sys2Proof.Machine.execPowerOnResetEnd strap s
  | .powerGatingRefusal p => Sys2Proof.Machine.execPowerGatingRefusal p s
  | .portOrSplitRefusal p => Sys2Proof.Machine.execPortOrSplitRefusal p s
  | .mirrorWriteRefusal p => Sys2Proof.Machine.execMirrorWriteRefusal p s
  | .journalOffsetRangeRefusal p => Sys2Proof.Machine.execJournalOffsetRangeRefusal p s
  | .partRequestGrantEnd => Sys2Proof.Machine.execPartRequestGrantEnd s

end Sys2Proof.Machine
end

