-- ==== Sys2Proof/Safety.lean ====
section
/-! DEFINITION. What every step keeps: canonical memories, counts and lists in their ranges, the open-row table, the lock store. -/

namespace Sys2Proof.Machine

/-- Page buffers in use (R45): FILLING, CLOSED and IN-FLIGHT ones. -/
def Commit.buffersUsed (c : Commit) : Nat :=
  c.closed.length + (if c.filling.isSome then 1 else 0) + (if c.inflight.isSome then 1 else 0)

/-- Counts and lists lie in the ranges their rules give (R31, R34, R45, R53, R95, R110, R132, R133, R142, R145, R170). -/
def State.bounded (s : State) : Bool :=
  decide (s.stg.outbox.length ≤ 8) && decide (s.stg.lost ≤ 65535)
  && decide (s.com.buffersUsed ≤ 2) && decide (s.com.skip.length ≤ 16)
  && decide (s.img.results.length ≤ 8)
  && decide (s.ports.svp.queue.length ≤ 4) && decide (s.ports.mnp.queue.length ≤ 4)
  && decide (s.dram.corrected ≤ 65535) && decide (s.dram.uncorrectable ≤ 65535) && decide (s.dram.lostRefresh ≤ 65535)
  && decide (s.dram.correction.length ≤ 4)
  && decide (s.dram.owed ≤ 8) && decide (s.dram.patrol ≤ 2)
  && decide (s.quiet.count ≤ 65535)

/-- No two entries of the open-row table hold one bank, and the use ranks are 1, 2, 3 and 4 in some order (R126, R127). -/
def rowsWf (t : Four RowEntry) : Bool :=
  decide (t.toList.filterMap (·.bank)).Nodup && [1, 2, 3, 4].all (fun r => (t.toList.map (·.rank)).contains r)

/-- The lock store holds values in their ranges (R99), and the fields that a burn carries past step 2 are in range and
only tighten it (R88). -/
def State.lockWf (s : State) : Bool :=
  lockOk s.lock &&
  match s.img.burn with
  | some b =>
    match b.newLock with
    | some l => lockOk l && oneWay s.lock l
    | none => true
  | none => true

end Sys2Proof.Machine
end

