-- ==== Sys2Proof/Certificates/Slice0/Obligations.lean ====
section
/-! DEFINITION. The statements for the provers. `Claims` holds the words they share: conditions on a state, and next states written out as record updates, so that every field not named is said to be unchanged. -/

namespace Sys2Proof.Machine.Claims

/-- The part runs, the port's current request is `r`, not yet taken, and at most three more wait behind it (R110). -/
def Current (s : State) (p : Port) (r : Request) (rest : List Request) : Prop :=
  s.su.supply = .running ∧ (s.ports.get p).carry = .untaken ∧ (s.ports.get p).queue = r :: rest ∧ rest.length < 4

/-- The part runs, the port's current request is `r`, carried as `c`, and at most three more wait behind it (R110). -/
def Carried (s : State) (p : Port) (c : Carry) (r : Request) (rest : List Request) : Prop :=
  s.su.supply = .running ∧ (s.ports.get p).carry = c ∧ (s.ports.get p).queue = r :: rest ∧ rest.length < 4

/-- The ports once the port's current request is answered: it leaves, and the first stalled request takes a place (R110). -/
def answered (s : State) (p : Port) (rest : List Request) (a : Response) : PerPort PortState :=
  s.ports.set p ⟨rest ++ (s.ports.get p).bus.take 1, .untaken, (s.ports.get p).bus.drop 1, (s.ports.get p).answers ++ [a]⟩

/-- The relapse timer once a request of the port is taken (R154). -/
def relapseAfter (s : State) (p : Port) : Nat := if p = .mnp then 0 else s.pow.relapse

/-- The current request is refused at once: nothing but the port and the relapse timer changes. -/
def refusedAtOnce (s : State) (p : Port) (rest : List Request) (reason : Reason) : State :=
  { s with ports := answered s p rest (.refused reason), pow.relapse := relapseAfter s p }

/-- The current request is taken and its DRAM request waits at the port's requester (R115). -/
def presented (s : State) (p : Port) (c : Carry) (q : DramReq) : State :=
  { s with
    ports := s.ports.set p { s.ports.get p with carry := c }
    pow.relapse := relapseAfter s p
    dram.waiting := s.dram.waiting.set (Source.ofPort p) (some q) }

/-- The commands that take a port's current request. -/
def takes (p : Port) : List Instr :=
  [.plainRead p, .plainWrite p, .mirrorRead p, .acknowledgeWrite p, .openingWord p, .payloadWord p, .journalBurst p, .imageRead p,
   .imageWrite p, .flashRead p, .directionRefusal p, .nowindow p, .powerGatingRefusal p, .portOrSplitRefusal p,
   .mirrorWriteRefusal p, .journalOffsetRangeRefusal p]

/-- Every attention cause but those named is as before (R176). -/
def CausesKept (s t : State) (but : List Cause) : Prop := ∀ c, c ∉ but → t.mir.attention.get c.ix = s.mir.attention.get c.ix

/-- One record was offered to the outbox (R31, R34): it is at the tail, or with eight waiting it is counted and LOST raised. Every
other attention cause is as before, but for those the event itself raises. -/
def Offered (s t : State) (r : Record) (raised : List Cause := []) : Prop :=
  (s.stg.outbox.length < 8 → t.stg.outbox = s.stg.outbox ++ [r] ∧ t.stg.lost = s.stg.lost ∧ CausesKept s t raised) ∧
  (8 ≤ s.stg.outbox.length →
    t.stg.outbox = s.stg.outbox ∧ t.stg.lost = min 65535 (s.stg.lost + 1) ∧ t.mir.attention.get Cause.lost.ix = .waiting ∧
    CausesKept s t (.lost :: raised))

/-- Both memories read as before at every address. -/
def MemoryKept (s t : State) : Prop := t.dram.cells = s.dram.cells ∧ t.flash.cells = s.flash.cells

/-- The record a context held is abandoned (R14): the context is empty, its reservation released, an ABANDONED record with the
port, class, kind, words received and cause offered, and nothing else changed but dirty and LOST. -/
def Abandoned (s t : State) (p : Port) (c : ClassId) (x : OpenCtx) (cause : Nat) : Prop :=
  t = { s with
    ctx := s.ctx.set p ((s.ctx.get p).set c none)
    stg := { s.stg with
      rings := s.stg.rings.set c { s.stg.rings.get c with reserved := (s.stg.rings.get c).reserved - 1 }
      outbox := t.stg.outbox
      lost := t.stg.lost }
    mir := { s.mir with dirty := true, attention := t.mir.attention } } ∧
  Offered s t (partRecord 0xF7#8 false s.stamp
    [BitVec.ofNat 32 (portCode p), BitVec.ofNat 32 c.val, BitVec.ofNat 32 x.kind.toNat, BitVec.ofNat 32 x.received, BitVec.ofNat 32 cause])

/-- A port record as it completes (R12, R18, R19): a TIMESET is stamped with the time it loads, TSET and no UNSET. -/
def completedRecord (s : State) (p : Port) (kind : Byte) (urgent : Bool) (payload : List Word) : Record :=
  { kind := kind, urgent := urgent, origin := Origin.ofPort p, payload := payload
    stamp := if kind = 0xEE#8 then ⟨timesetValue payload, false, s.pow.coarse, true⟩ else ⟨s.pow.time, s.pow.unset, s.pow.coarse, false⟩ }

/-- The state once a port record has completed (R12, R19, R170): the context is empty, the record is at the tail of the ring
write queue, a TIMESET has loaded the time base and cleared UNSET, and a record of SVP has re-armed the quiet timer. -/
def completed (s : State) (p : Port) (c : ClassId) (kind : Byte) (urgent : Bool) (payload : List Word) : State :=
  { s with
    ctx := s.ctx.set p ((s.ctx.get p).set c none)
    stg := { s.stg with queue := s.stg.queue ++ [{ cls := c, port := some p, body := completedRecord s p kind urgent payload }] }
    pow := { s.pow with
      time := if kind = 0xEE#8 then timesetValue payload else s.pow.time
      unset := if kind = 0xEE#8 then false else s.pow.unset }
    quiet := if p = .svp then
        { s.quiet with remaining := s.quiet.remaining.map (fun _ => s.prof.quietInterval * 1000), count := 0 }
      else s.quiet
    mir := { s.mir with dirty := s.mir.dirty || (decide (kind = 0xEE#8) && s.pow.unset) || (decide (p = .svp) && decide (s.quiet.count ≠ 0)) } }

/-- A reservation more in a class (R22). -/
def reservedOne (s : State) (c : ClassId) : State :=
  { s with
    stg := { s.stg with rings := s.stg.rings.set c { s.stg.rings.get c with reserved := (s.stg.rings.get c).reserved + 1 } }
    mir := { s.mir with dirty := true } }

/-- The current request is answered DONE in a state that its effect has reached. -/
def doneIn (s : State) (p : Port) (rest : List Request) (u : State) : State :=
  { u with ports := answered s p rest (.done []), pow := { u.pow with relapse := relapseAfter s p } }

/-- The main clock runs and no self-refresh entry has been requested: the part starts work of its own (R151, R156). -/
def Awake (s : State) : Prop :=
  s.su.supply = .running ∧ s.dram.entryReq = none ∧
  (s.pow.state = .run ∨ s.pow.state = .settling ∨ s.pow.state = .roused ∨ s.pow.state = .pfDrain)

/-- A JOURNAL-EVENT record of the state (R4). -/
def journalEvent (s : State) (event block page : Nat) : Record :=
  partRecord 0xF9#8 false s.stamp [BitVec.ofNat 32 event, BitVec.ofNat 32 block, BitVec.ofNat 32 page]

/-- A header formed at close (R46). -/
def headerAt (c : Commit) (recs : List Placed) (cause : CloseCause) : ClosedBuf :=
  { recs := recs, cause := cause, mask := c.placedPresent
    placed := Four.build (fun i => if c.placedPresent.get i then c.placedSeq.get i else 0#32) }

/-- A job is at the device with no erase suspended behind it (R63). -/
def JobAtDevice (s : State) (j : Job) : Prop := s.flash.currentJob = some j ∧ s.flash.suspended = none

/-- Only the flash unit and the commit side may have changed, with what a stall or a failure reports. -/
def CommitFrame (s t : State) : Prop :=
  t = { s with
    stg := { s.stg with rings := t.stg.rings, outbox := t.stg.outbox, lost := t.stg.lost }
    com := t.com
    flash := t.flash
    mir := { s.mir with dirty := t.mir.dirty, attention := t.mir.attention } } ∧
  CausesKept s t [.full, .lost]

/-- Flash words outside a range of addresses read as before. -/
def FlashKeptOutside (s t : State) (first count : Nat) : Prop :=
  ∀ a, a < first ∨ first + count ≤ a → readCell erasedWord t.flash.cells a = readCell erasedWord s.flash.cells a

/-- Each word of a block reads its former value or FFFFFFFFh, and every other word as before (R73, R74, R76). -/
def PartErased (s t : State) (block : Nat) : Prop :=
  FlashKeptOutside s t (block * 1024) 1024 ∧
  ∀ a, block * 1024 ≤ a → a < block * 1024 + 1024 →
    readCell erasedWord t.flash.cells a = readCell erasedWord s.flash.cells a ∨ readCell erasedWord t.flash.cells a = erasedWord

/-- Each word of a page reads FFFFFFFFh or the value being programmed, and every other word as before (R74, R78). -/
def Torn (s t : State) (block page : Nat) (words : List Word) : Prop :=
  FlashKeptOutside s t (flashAddr block page 0) words.length ∧
  ∀ i, i < words.length → readCell erasedWord t.flash.cells (flashAddr block page i) = erasedWord ∨
    readCell erasedWord t.flash.cells (flashAddr block page i) = wordAt words i

/-- A page takes the words programmed: each word is the old value and-ed with the new, but for the words the device left at
another value (R62, log 10); every other word reads as before. -/
def Programmed (s t : State) (block page : Nat) (words : List Word) (ds : List Defect) : Prop :=
  FlashKeptOutside s t (flashAddr block page 0) 64 ∧
  ∀ i, i < words.length → (∀ d ∈ ds, d.word ≠ i) → readCell erasedWord t.flash.cells (flashAddr block page i) =
    readCell erasedWord s.flash.cells (flashAddr block page i) &&& wordAt words i

/-- A block is erased, but for the words the device left at another value (R62, log 10); every other word reads as before. -/
def ErasedBlock (s t : State) (block : Nat) (ds : List Defect) : Prop :=
  FlashKeptOutside s t (block * 1024) 1024 ∧
  ∀ i, i < 1024 → (∀ d ∈ ds, d.word ≠ i) → readCell erasedWord t.flash.cells (block * 1024 + i) = erasedWord

/-- A burn or an idle abandonment ended with a result (R94, R95): the slot is EMPTY, the result joins the front of the list of
eight, a BURN record is offered and BURN raised. -/
def BurnResultGiven (s t : State) (slot : SlotId) (block code : Nat) (sum : Sum16) (raised : List Cause := []) : Prop :=
  t.img.slots = s.img.slots.set slot .empty ∧
  t.img.results = (⟨block, code, sum⟩ :: s.img.results).take 8 ∧
  Offered s t (partRecord 0xF4#8 false s.stamp [BitVec.ofNat 32 block, BitVec.ofNat 32 code, BitVec.ofNat 32 sum.toNat])
    (.burn :: raised) ∧
  t.mir.attention.get Cause.burn.ix = .waiting ∧ t.mir.dirty = true

/-- Everything but the burn side is as before: slots, results, burn, its job and DRAM request, the outbox and the mirror's flags. -/
def BurnFrame (s t : State) : Prop :=
  t = { s with
    img := t.img
    stg := { s.stg with outbox := t.stg.outbox, lost := t.stg.lost }
    flash := { s.flash with current := t.flash.current, burn := t.flash.burn }
    dram := { s.dram with waiting := s.dram.waiting.set .burn (t.dram.waiting.get .burn) }
    mir := { s.mir with dirty := t.mir.dirty, attention := t.mir.attention } } ∧
  CausesKept s t [.burn, .lost]

/-- Nothing is reported: outbox, LOST count, rings and mirror are as before. -/
def NothingReported (s t : State) : Prop := t.stg = s.stg ∧ t.mir = s.mir

/-- The burn goes on in RUN with a job in the burn list. -/
def OffersJob (s t : State) (b : Burn) (j : Job) : Prop :=
  t.img = { s.img with burn := some { b with act := .job, paused := false } } ∧ t.flash.burn = [j]

/-- The burn goes on in RUN with the first of its reads waiting at the BURN requester. -/
def StartsReads (s t : State) (b : Burn) (act : BurnAct) (off : Nat) : Prop :=
  t.img = { s.img with burn := some { b with act := act, paused := false } } ∧ t.dram.waiting.get .burn = some (.read off 16)

/-- The burn pauses at a boundary between its jobs outside RUN: its held step is kept and it offers nothing (R96; log 26). -/
def Pauses (s t : State) (b : Burn) : Prop :=
  t.img = { s.img with burn := some { b with act := .idle, paused := true } } ∧ t.flash.burn = s.flash.burn ∧
  t.dram.waiting = s.dram.waiting

/-- A boundary between jobs (R96): in RUN the burn offers the job, in any other state it pauses; nothing is reported. -/
def JobNext (s t : State) (b : Burn) (j : Job) : Prop :=
  NothingReported s t ∧ (s.pow.state = .run → OffersJob s t b j) ∧ (s.pow.state ≠ .run → Pauses s t b)

/-- A boundary between jobs (R96): in RUN the burn's next reads begin, in any other state it pauses; nothing is reported. -/
def ReadsNext (s t : State) (b : Burn) (act : BurnAct) (off : Nat) : Prop :=
  NothingReported s t ∧ (s.pow.state = .run → StartsReads s t b act off) ∧ (s.pow.state ≠ .run → Pauses s t b)

/-- The slot of a burn that PF-DRAIN stopped is QUEUED again at the front of the burn queue, without a result, and of the burn no job and
no waiting DRAM request is left (R97; log 41). -/
def Requeued (s t : State) (b : Burn) : Prop :=
  t.img = { s.img with burn := none, slots := s.img.slots.set b.slot (.queued b.block), queue := b.slot :: s.img.queue } ∧
  t.flash.burn = [] ∧ t.dram.waiting.get .burn = none

/-- The lock store refuses an image block (R83). -/
def refusesBlock (l : LockVals) (b : Nat) : Prop :=
  l.imageProgram = true ∨ (b ≤ l.bootEnd ∧ l.bootRewrite = true) ∨ (1 ≤ b ∧ ¬ (l.shieldS ≤ b ∧ b ≤ l.shieldE))

/-- The DRAM is free (R129): the clock runs, the DRAM is usable with no self-refresh entry asked for, or one that waits for the ring
write queue (R24, log 15), and no grant and no refresh is in progress. -/
def DramFree (s : State) : Prop :=
  s.su.supply = .running ∧ s.pow.state ≠ .doze ∧ s.pow.state ≠ .pfHalt ∧ s.dram.mode = .usable ∧
  (s.dram.entryReq = none ∨ s.stg.queue ≠ []) ∧ s.dram.grant = none ∧ s.dram.refresh = .none

/-- One requester stands above another in the order of R130. -/
def above (a b : Source) : Prop := Source.order.idxOf a < Source.order.idxOf b

/-- A requester is due under WSP (R131): its passover count has reached 16 minus its weight. -/
def isDue (s : State) (r : Source) : Prop := 16 - s.prof.weights.get r ≤ s.dram.passover.get r

/-- The policy grants this requester (R130, R131). -/
def favours (s : State) (r : Source) : Prop :=
  (s.prof.policy = .sp → ∀ j, above j r → s.dram.waiting.get j = none) ∧
  (s.prof.policy = .wsp →
    (isDue s r ∧ ∀ j, above j r → s.dram.waiting.get j ≠ none → ¬ isDue s j) ∨
    ((∀ j, s.dram.waiting.get j ≠ none → ¬ isDue s j) ∧ ∀ j, above j r → s.dram.waiting.get j = none))

/-- An open-row table after one access (R127): the entry that holds the bank, else the lowest-numbered closed one, else the one
with use rank 4, holds the row with rank 1, and every entry of a lower rank number than it had moves down by one. -/
def LookedUp (t u : Four RowEntry) (bank row : Nat) : Prop :=
  ∃ i : Fin 4,
    ((t.get i).bank = some bank ∨
      ((∀ j, (t.get j).bank ≠ some bank) ∧
        (((t.get i).row = none ∧ ∀ j, j < i → (t.get j).row ≠ none) ∨ ((∀ j, (t.get j).row ≠ none) ∧ (t.get i).rank = 4)))) ∧
    u.get i = ⟨some bank, some row, 1⟩ ∧
    ∀ j, j ≠ i → u.get j = ⟨(t.get j).bank, (t.get j).row,
      if (t.get j).rank < (t.get i).rank then (t.get j).rank + 1 else (t.get j).rank⟩

/-- An open-row table after a request of `len` words at a word offset (R124, R127): one access, or two in address order. -/
def RowsAfter (p : Profile) (t u : Four RowEntry) (off len : Nat) : Prop :=
  let at_ (w : Nat) : Nat × Nat := (w / p.cols % p.banks, w / (p.cols * p.banks))
  if at_ off = at_ (off + len - 1) then LookedUp t u (at_ off).1 (at_ off).2
  else ∃ m, LookedUp t m (at_ off).1 (at_ off).2 ∧ LookedUp m u (at_ (off + len - 1)).1 (at_ (off + len - 1)).2

/-- Bits flipped in the device (log 10): words that no flip names read as before. -/
def CellsBut (s t : State) (us : List Upset) : Prop :=
  ∀ a, (∀ u ∈ us, u.offset ≠ a) → readCell dramDefault t.dram.cells a = readCell dramDefault s.dram.cells a

/-- Words of the geometry (R123). -/
def inGeometry (p : Profile) (off len : Nat) : Prop := off + len ≤ p.banks * p.rows * p.cols

/-- The rows closed (R126, R128): every entry closed with ranks 1 to 4 in order, no bank with 8 banks and bank i with 4. -/
def AllClosed (p : Profile) (t : Four RowEntry) : Prop :=
  ∀ i : Fin 4, (t.get i).row = none ∧ (t.get i).rank = i.val + 1 ∧ (t.get i).bank = if p.banks = 4 then some i.val else none

/-- A stored word with the bits of positions flipped. -/
def flipped (c : Code) (i : Nat) : Code := c ^^^ (1#39 <<< i)

/-- Several records were offered to the outbox in order (R31, R34): those that found room are at its tail, the others are counted,
and LOST is raised for them. Every other attention cause is as before, but for those the events themselves raise. -/
def OfferedAll (s t : State) (rs : List Record) (raised : List Cause := []) : Prop :=
  CausesKept s t (.lost :: raised) ∧
  (s.stg.outbox.length ≤ 8 → s.stg.lost ≤ 65535 →
    t.stg.outbox = s.stg.outbox ++ rs.take (8 - s.stg.outbox.length) ∧
    t.stg.lost = min 65535 (s.stg.lost + (rs.length - (8 - s.stg.outbox.length))) ∧
    (s.stg.outbox.length + rs.length ≤ 8 → CausesKept s t raised) ∧
    (8 < s.stg.outbox.length + rs.length → t.mir.attention.get Cause.lost.ix = .waiting))

/-- The ABANDONED records of a port's open contexts, in class order (R14 to R16). -/
def abandonments (s : State) (p : Port) (cause : Nat) : List Record :=
  ([0, 1, 2, 3] : List ClassId).filterMap (fun c => (s.context p c).map (fun x =>
    partRecord 0xF7#8 false s.stamp [BitVec.ofNat 32 (portCode p), BitVec.ofNat 32 c.val, BitVec.ofNat 32 x.kind.toNat,
      BitVec.ofNat 32 x.received, BitVec.ofNat 32 cause]))

/-- A reservation released for each open context of the ports that lose theirs (R23). -/
def Released (s t : State) (ps : List Port) : Prop :=
  ∀ c, t.stg.rings.get c = { s.stg.rings.get c with
    reserved := (s.stg.rings.get c).reserved - (ps.filter (fun p => (s.context p c).isSome)).length }

/-- A DOZE record is offered (R4), and nothing else changes but dirty and LOST. -/
def Dozed (s t : State) (direction cause : Nat) : Prop :=
  t = { s with
    stg := { s.stg with outbox := t.stg.outbox, lost := t.stg.lost }
    mir := { s.mir with dirty := true, attention := t.mir.attention } } ∧
  Offered s t (partRecord 0xF5#8 true s.stamp [BitVec.ofNat 32 direction, BitVec.ofNat 32 cause])

/-- A payload write of the port has been taken and not yet carried to its context (R110): it is at the front of the queue, and the
state serves the port. A write that begins with an opening word opens no record again (R15, R16) and is none. -/
def PayloadInCarry (s : State) (p : Port) : Prop :=
  s.su.supply = .running ∧ (s.ports.get p).carry = .untaken ∧ s.gate p = .serve ∧
  ∃ r rest c k, (s.ports.get p).queue = r :: rest ∧
    (lookup s.prof.windows r = .payload c k ∨ 1 ≤ k ∧ lookup s.prof.windows r = .burst c k)

/-- The ports at an event that abandons the records of some of them (R15, R16; log 37): a payload write in carry stays taken. -/
def Latched (s t : State) (ps : List Port) : Prop :=
  ∀ p, (p ∈ ps → PayloadInCarry s p → t.ports.get p = { s.ports.get p with carry := .taken }) ∧
    (p ∉ ps ∨ ¬ PayloadInCarry s p → t.ports.get p = s.ports.get p)

/-- Nothing waits for a change of the power state to begin or be noted: a FILLING buffer that is empty, no held candidate, no
stall (R45, R46, R54). -/
def Calm (s : State) : Prop :=
  s.com.filling.isSome = true ∧ s.com.held = none ∧ s.com.fillingHolds = false ∧ s.com.stalled = false

/-- What a change of the power state reports of commit (R54): nothing, or a stall with its JOURNAL-EVENT and the cause FULL. -/
def Stalls (s : State) (more : List Record) (raised : List Cause) : Prop :=
  more = [] ∧ raised = [] ∨ s.com.full = false ∧ more = [journalEvent s 4 s.com.headBlock 0] ∧ raised = [.full]

/-- With every queue empty and no candidate held the FILLING page closes by DRAIN (R46). -/
def DrainCloses (s t : State) : Prop :=
  ∀ f, s.com.filling = some f → f.recs ≠ [] → (∀ c, s.com.queues.get c = []) → s.stg.queue = [] → s.com.held = none →
    t.com.closed = s.com.closed ++ [headerAt s.com f.recs .drain]

/-- The part has entered RUN (R161, R170): the quiet timer has a full interval, or with an interval of 0 stays stopped, and a
paused burn offers the job of its held step or its next read. -/
def InRun (s t : State) : Prop :=
  let quiet := { s.quiet with remaining := if s.prof.quietInterval = 0 then none else some (s.prof.quietInterval * 1000) }
  t.pow = { s.pow with state := .run } ∧ t.quiet = quiet ∧
  t.ctx = s.ctx ∧ t.dram.cells = s.dram.cells ∧ t.flash.cells = s.flash.cells ∧ t.con = s.con ∧ t.ports = s.ports ∧
  CausesKept s t [.full, .lost] ∧
  (Calm s → (∀ b, s.img.burn = some b → b.paused = false) →
    t = { s with pow := { s.pow with state := .run }, quiet := quiet, mir := { s.mir with dirty := true } }) ∧
  ∀ b, s.img.burn = some b → b.paused = true →
    let base := s.prof.shadowBase / 4 + b.slot.val * 1024
    (b.held = .s2 ∨ b.held = .s5 none → StartsReads s t b (.reading 0 []) base) ∧
    (b.held = .s3 ∨ b.held = .s4Blank → OffersJob s t b (.burnBlank b.block)) ∧
    (b.held = .s4Erase → OffersJob s t b (.burnErase b.block)) ∧
    (∀ page more, b.held = .s5 (some (page :: more)) → StartsReads s t b (.fetching 0 []) (base + 64 * page)) ∧
    (∀ page sum bad, b.held = .s6 page sum bad → StartsReads s t b (.fetching 0 []) (base + 64 * page))

/-- The part has entered SETTLING (R153): SVP's records are abandoned with cause 4 and the quiet timer stops; a payload write of
SVP in carry stays taken (R15). -/
def InSettling (s t : State) : Prop :=
  t = { s with
    ports := t.ports
    ctx := { s.ctx with svp := Four.const none }
    stg := { s.stg with rings := t.stg.rings, outbox := t.stg.outbox, lost := t.stg.lost }
    com := t.com
    pow := { s.pow with state := .settling }
    quiet := { s.quiet with remaining := none }
    mir := { s.mir with dirty := true, attention := t.mir.attention } } ∧
  Latched s t [.svp] ∧ Released s t [.svp] ∧ DrainCloses s t ∧
  ∃ more raised, Stalls s more raised ∧ OfferedAll s t (abandonments s .svp 4 ++ more) raised ∧ (Calm s → t.com = s.com ∧ more = [])

/-- The part has entered ROUSED (R160): the relapse timer restarts. -/
def InRoused (s t : State) : Prop :=
  t = { s with
    stg := { s.stg with outbox := t.stg.outbox, lost := t.stg.lost }
    com := t.com
    pow := { s.pow with state := .roused, relapse := 0 }
    mir := { s.mir with dirty := true, attention := t.mir.attention } } ∧
  DrainCloses s t ∧ CausesKept s t [.full, .lost] ∧ (Calm s → t.com = s.com ∧ t.stg = s.stg ∧ t.mir.attention = s.mir.attention)

/-- The part has entered PF-DRAIN (R162, R76, R97): a POWERFAIL record with the staged counts, then every open context abandoned
with cause 5; POWER raised; the quiet timer stopped; an erase asked to abort; a burn with no job at the device or suspended, or with a blank
check or verify at the device, back at the front of the burn queue, and one with another job, a suspended erase or a fetch marked to go
back when that ends, also where an earlier entry had marked it already; of a burn that goes back no BURN request stays waiting (log 41);
a payload write of a port in carry stays taken (R16). -/
def InDrain (s t : State) : Prop :=
  t = { s with
    ports := t.ports
    ctx := ⟨Four.const none, Four.const none⟩
    stg := { s.stg with rings := t.stg.rings, outbox := t.stg.outbox, lost := t.stg.lost }
    com := t.com
    flash := { s.flash with current := t.flash.current, suspended := t.flash.suspended, burn := t.flash.burn }
    img := { s.img with slots := t.img.slots, queue := t.img.queue, burn := t.img.burn }
    dram := { s.dram with waiting := s.dram.waiting.set .burn (t.dram.waiting.get .burn) }
    pow := { s.pow with state := .pfDrain, entryPending := false }
    quiet := { s.quiet with remaining := none }
    mir := { s.mir with dirty := true, attention := t.mir.attention } } ∧
  t.mir.attention.get Cause.power.ix = .waiting ∧ Latched s t [.svp, .mnp] ∧ Released s t [.svp, .mnp] ∧ DrainCloses s t ∧
  (∃ more raised, Stalls s more raised ∧ (Calm s → t.com = s.com ∧ more = []) ∧ OfferedAll s t
    (partRecord 0xF6#8 true s.stamp (s.stg.rings.toList.map (fun r => BitVec.ofNat 32 r.staged)) ::
      (abandonments s .svp 5 ++ abandonments s .mnp 5 ++ more)) (.power :: raised)) ∧
  (∀ r, s.flash.current = some r → r.job.isErase = true → t.flash.current = some { r with abortReq := true }) ∧
  (∀ r, s.flash.suspended = some r → r.job.isErase = true → t.flash.suspended = some { r with abortReq := true }) ∧
  (s.img.burn = none → t.img = s.img ∧ t.flash.burn = s.flash.burn ∧ t.dram.waiting = s.dram.waiting ∧
    ∀ r, s.flash.current = some r → r.job.isErase = false → t.flash.current = some r) ∧
  ∀ b, s.img.burn = some b →
    let requeued := Requeued s t b
    let marked := t.img = { s.img with burn := some { b with aborting := true } } ∧ t.flash.burn = s.flash.burn
    (b.act = .idle ∨ (∃ k ws, b.act = .reading k ws) → requeued) ∧
    (∀ k ws, b.act = .fetching k ws → marked) ∧
    (b.act = .job → (∀ r, s.flash.current = some r ∨ s.flash.suspended = some r → r.job.isBurn = false) → requeued) ∧
    (∀ r, b.act = .job → s.flash.suspended = some r → r.job = .burnErase b.block →
      (∀ x, s.flash.current = some x → x.job.isBurn = false) → marked) ∧
    (∀ r, b.act = .job → s.flash.current = some r →
      (r.job = .burnBlank b.block ∨ (∃ page ws start, r.job = .burnVerify b.block page ws start) → requeued ∧ t.flash.current = none) ∧
      (r.job = .burnErase b.block ∨ (∃ page ws, r.job = .burnProgram b.block page ws) → marked))

/-- The part is blocked (R155): commit is stalled and class 0 has no unclaimed slot. -/
def Blocked (s : State) : Prop := s.com.stalled = true ∧ s.unclaimed 0 = 0

/-- The settled conditions (R155). -/
def Settled (s : State) : Prop :=
  (s.pow.state = .settling ∨ s.pow.state = .roused) ∧
  (((∀ c, s.com.queues.get c = []) ∧ s.stg.queue = [] ∧ s.com.held = none ∧ s.com.fillingHolds = false ∧ s.com.closed = [] ∧
    s.com.inflight = none) ∨ s.com.stalled = true) ∧
  s.flash.current = none ∧ s.flash.suspended = none ∧
  (∀ b, s.img.burn = some b → b.paused = true) ∧
  (s.stg.outbox = [] ∨ Blocked s) ∧
  ((∀ i, s.con.slots.get i = none) ∨ Blocked s) ∧
  (∀ c, s.context .mnp c = none) ∧ s.prof.relapseInterval ≤ s.pow.relapse ∧ s.ports.mnp.queue = [] ∧
  (s.pow.state = .settling → s.ports.svp.queue = [])

/-- The end of the power-fail drain (R163, R60), with the port reads dispatched before it carried (R76, R119). -/
def Drained (s : State) : Prop :=
  s.pow.state = .pfDrain ∧
  (((∀ c, s.com.queues.get c = []) ∧ s.com.held = none ∧ s.com.closed = [] ∧ s.com.inflight = none) ∨ s.com.stalled = true) ∧
  (s.stg.outbox = [] ∨ s.unclaimed 0 = 0) ∧ s.stg.queue = [] ∧
  ((∀ i, s.con.slots.get i = none) ∨ s.stg.outbox.length = 8) ∧
  s.flash.current = none ∧ s.flash.suspended = none ∧ s.flash.portReads = [] ∧ (∀ j ∈ s.flash.upkeep, j.isErase = true)

/-- Self-refresh entry has been asked for (R147): at once the rows close and, where refreshes are owed, their sequence begins; with
a grant or a refresh in progress that follows its end. -/
def EntryAsked (s t : State) (why : EntryWhy) : Prop :=
  (s.dram.grant = none → s.dram.refresh = .none → AllClosed s.prof t.dram.rows ∧
    t = { s with dram := { s.dram with
      entryReq := some why, rows := t.dram.rows, refresh := if 0 < s.dram.owed then .entry else .none } }) ∧
  (s.dram.grant ≠ none ∨ s.dram.refresh ≠ .none → t = { s with dram := { s.dram with entryReq := some why } })

/-- An edge of an input to a level has been recognised (R166, R167, R159): the tracked level follows and the debounce time starts; one in the
edge mode's direction fills or merges into the capture slot, and with wake-enable in DOZE it is wake cause 2. -/
def Recognised (u t : State) (i : ClassId) (level : Bool) : Prop :=
  let cfg := u.prof.contacts.get i
  let tracked (taken : Bool) (capture : Option Capture) : State := { u with
    con := { u.con with
      tracked := u.con.tracked.set i level
      debounce := u.con.debounce.set i (if cfg.debounce = 0 then none else some 0)
      slots := if taken then u.con.slots.set i capture else u.con.slots }
    pow := { u.pow with wakeCause :=
      if taken = true ∧ cfg.wake = true ∧ u.pow.state = .doze then some (u.pow.wakeCause.getD 2) else u.pow.wakeCause }
    dram := { u.dram with exitReq := u.dram.exitReq || (taken && cfg.wake && decide (u.pow.state = .doze)) }
    mir := { u.mir with dirty := true } }
  let accepted := cfg.mode = .both ∨ cfg.mode = .rise ∧ level = true ∨ cfg.mode = .fall ∧ level = false
  (¬ accepted → t = tracked false none) ∧
  (accepted → u.con.slots.get i = none →
    t = tracked true (some ⟨level, 1, u.pow.time, u.pow.coarse, u.pow.time, u.pow.coarse⟩)) ∧
  (∀ x, accepted → u.con.slots.get i = some x → t = tracked true (some ⟨level, min 65535 (x.count + 1), x.first, x.firstCoarse,
    u.pow.time, u.pow.coarse⟩))

/-- An edge of an input to a level (R166): recognised unless the input is OFF, its debounce time runs or the level is the tracked one. -/
def EdgeTaken (u t : State) (i : ClassId) (level : Bool) : Prop :=
  ((u.prof.contacts.get i).mode = .off ∨ u.con.debounce.get i ≠ none ∨ u.con.tracked.get i = level → t = u) ∧
  ((u.prof.contacts.get i).mode ≠ .off → u.con.debounce.get i = none → u.con.tracked.get i ≠ level → Recognised u t i level)

/-- The wake cause of a held event that is no contact edge (R159). -/
def heldCause (e : HeldEvent) (code : Nat) : Prop :=
  e = .mnpArrived ∧ code = 1 ∨ e = .lpreqReleased ∧ code = 4 ∨ e = .pfwAsserted ∧ code = 5

/-- Held events taken one after another as events of DOZE (R156, R159): a wake cause is recorded where none is and asks for the exit, and
a contact edge is an edge then. -/
inductive HeldTaken : List HeldEvent → State → State → Prop
  | done (s : State) : HeldTaken [] s s
  | wakes (e : HeldEvent) (code : Nat) (more : List HeldEvent) (s t : State) : heldCause e code →
      HeldTaken more { s with pow.wakeCause := some (s.pow.wakeCause.getD code), dram.exitReq := true } t → HeldTaken (e :: more) s t
  | edge (i : ClassId) (level : Bool) (more : List HeldEvent) (s u t : State) : EdgeTaken s u i level →
      HeldTaken more u t → HeldTaken (.contact i level :: more) s t

/-- The commands that end a grant, but for a ring write's (R125, R134, R145). -/
def grantEnds : List Instr :=
  [.portDramGrantEnd, .partRequestGrantEnd, .slotFillComplete, .acknowledgeWrite .svp, .acknowledgeWrite .mnp, .burnShadowReadComplete,
   .sourceFetchComplete, .candidateReadComplete, .mirrorWriteComplete, .writeBackEnd, .patrolReadEnd]

/-- The DRAM is in self-refresh (R147): every row closed, nothing owed, the timer stopped, the residency timer at 0. -/
def Asleep (s : State) (rows : Four RowEntry) : Dram :=
  { s.dram with
    mode := .selfRefresh, entryReq := none, refresh := .none, owed := 0, timerOn := false, residency := 0, rows := rows }

/-- The DRAM has left self-refresh (R148): usable, nothing owed, the timer on a full interval. -/
def Woken (s : State) : Dram :=
  { s.dram with
    mode := .usable, owed := 0, exitReq := false, residency := 0, timerOn := true
    period := if s.pow.hot = true then s.prof.refreshPeriod / 2 else s.prof.refreshPeriod }

/-- A port at a reset (R122): its queue is emptied without an answer, requests stalled on its bus stay there (log 31). -/
def emptied (x : PortState) : PortState := { x with queue := [], carry := .untaken }

/-- The power-on values of every block, over the flash contents, the lock store, the pins and the buses (R78, R100, R178; log 29). -/
def PoweredOn (s t : State) (supply : Supply) : Prop :=
  t = { s with
    ports := ⟨emptied s.ports.svp, emptied s.ports.mnp⟩
    ctx := State.reset.ctx
    stg := State.reset.stg
    com := State.reset.com
    flash := { State.reset.flash with cells := t.flash.cells }
    img := State.reset.img
    dram := State.reset.dram
    pow := { State.reset.pow with lpreq := s.pow.lpreq, pfw := s.pow.pfw, hot := s.pow.hot }
    con := { State.reset.con with pin := s.con.pin }
    quiet := State.reset.quiet
    mir := State.reset.mir
    su := { State.reset.su with supply := supply }
    prof := State.reset.prof
    free := t.free }

/-- What a reset leaves of the flash operation in progress (R78): nothing changed with none or with a read, a check or a verify, a
block part erased, a page torn. -/
def FlashCutOff (s t : State) : Prop :=
  (s.flash.current = none → s.flash.suspended = none → t.flash.cells = s.flash.cells) ∧
  (∀ r, s.flash.current = some r → s.flash.suspended = none → r.job.isErase = false → (∀ b p, r.job ≠ .pageProgram b p) →
    (∀ b p ws, r.job ≠ .burnProgram b p ws) → t.flash.cells = s.flash.cells) ∧
  (∀ r b, s.flash.current = some r → s.flash.suspended = none → (r.job = .upErase b ∨ r.job = .burnErase b) → PartErased s t b) ∧
  (∀ r b, s.flash.current = none → s.flash.suspended = some r → (r.job = .upErase b ∨ r.job = .burnErase b) → PartErased s t b) ∧
  (∀ r b p ws, s.flash.current = some r → s.flash.suspended = none → r.job = .burnProgram b p ws → s.memoryWf = true → Torn s t b p ws) ∧
  (∀ r f, s.flash.current = some r → s.flash.suspended = none → s.com.inflight = some f → r.job = .pageProgram f.block f.page →
    s.memoryWf = true → Torn s t f.block f.page (pageWords f))

/-- The DRAM phase begins with a release result, dirty set where the result shown changes (R107, R173, R184): with the DRAM-held
mark self-refresh exit is asked for, without it the device is initialised and filled. -/
def InDramPhase (s t : State) (release : Nat) : Prop :=
  t = { s with
    su := { s.su with release := release, phase := .dram }
    mir := { s.mir with dirty := s.mir.dirty || decide (s.su.release ≠ release) }
    dram := if s.su.dramHeld then { s.dram with exitReq := true } else { s.dram with mode := .filling } }

/-- Start-up has opened (R189): the START record at the front of the outbox, START raised, held captures consumed as the outbox has
room, READY, and the power state by PFW and LPREQ with the relapse timer at 0. -/
def Opened (s t : State) : Prop :=
  let start := partRecord 0xF0#8 true s.stamp ([s.su.cause, s.su.profState.code, s.su.release, s.su.mountResult,
    s.su.recovered.c0, s.su.recovered.c1, s.su.recovered.c2, s.su.recovered.c3].map (BitVec.ofNat 32))
  ∃ w : State,
    w = { s with
      stg := { s.stg with outbox := w.stg.outbox, lost := w.stg.lost }
      con := { s.con with slots := w.con.slots }
      pow := { s.pow with relapse := 0 }
      su := { s.su with ready := true, phase := .done, recovery := none }
      mir := { s.mir with dirty := true, attention := w.mir.attention } } ∧
    w.mir.attention.get Cause.start.ix = .waiting ∧ CausesKept s w [.start, .lost] ∧
    (s.stg.outbox.length < 8 → CausesKept s w [.start]) ∧ (8 ≤ s.stg.outbox.length → w.mir.attention.get Cause.lost.ix = .waiting) ∧
    (s.stg.outbox.length < 8 → (∀ i, s.con.slots.get i = none) → w.stg = { s.stg with outbox := start :: s.stg.outbox }) ∧
    (8 ≤ s.stg.outbox.length → w.con = s.con ∧ w.stg = { s.stg with
      outbox := start :: s.stg.outbox.take 7, lost := min 65535 (s.stg.lost + 1) }) ∧
    (s.stg.outbox.length < 4 → ∀ i, w.con.slots.get i = none) ∧
    (s.pow.pfw = true → InDrain w t) ∧
    (s.pow.pfw = false → s.pow.lpreq = true → InSettling w t) ∧
    (s.pow.pfw = false → s.pow.lpreq = false → InRun w t)

/-- Mount ends and RECOVERY follows (R187, R188, R189): the oldest retained page sequence is the lead of the tail block where that is VALID;
a warm start reads the slot of the first sequence not committed of class 0 for the STAGER requester, a cold one opens. -/
def MountEnds (u t : State) : Prop :=
  let oldest : Option Seq := match u.su.mount.classAt u.com.tail with
    | .valid h => some h.seq
    | _ => none
  let v : State := { u with
    com := { u.com with oldest := oldest }
    mir := { u.mir with dirty := u.mir.dirty || decide (u.com.oldest ≠ oldest) } }
  let next := (u.stg.rings.get 0).next
  let k := u.prof.classes.get 0
  (u.su.warm = true → t = { v with
    su := { u.su with phase := .recovery, recovery := some ⟨0, next⟩ }
    dram := { u.dram with waiting := u.dram.waiting.set .stager (some (.read (k.base / 4 + next.toNat % k.capacity * 16) 16)) } }) ∧
  (u.su.warm = false → Opened v t)

/-- Mount brings the erased-ahead run up (R187): while it is short of the spare target and the next block is ERASED that block is
blank-checked, and else mount ends. -/
def RunGrows (u t : State) : Prop :=
  let next := ringNext (ringSkip [] u.com.ahead u.com.headBlock)
  (u.com.ahead < u.prof.spareTarget → u.su.mount.classAt next = .erased →
    t = { u with flash := { u.flash with startup := [.suBlank next] } }) ∧
  (u.prof.spareTarget ≤ u.com.ahead ∨ u.su.mount.classAt next ≠ .erased → MountEnds u t)

/-- A word of fields, each with its first bit, its width and its value. -/
def packed (fields : List (Nat × Nat × Nat)) : Word := BitVec.ofNat 32 (fields.map (fun f => field f.1 f.2.1 f.2.2)).sum

/-- A mark as a number. -/
def mark (b : Bool) : Nat := if b then 1 else 0

/-- The words 1 and 2 and 5 to 29 of a mirror copy (R196): part, lock store, rings, last-staged sequences, outbox, head, tail, oldest
retained page sequence. A word under a mark that says it holds nothing is 0 (log 36). -/
def ShowsPart (s : State) (w : List Word) : Prop :=
  wordAt w 1 = packed [(0, 8, [PowerState.starting, .run, .settling, .doze, .roused, .pfDrain, .pfHalt].idxOf s.pow.state + 1),
    (8, 4, s.su.cause), (12, 4, [ProfileState.loaded, .safe, .pending].idxOf s.su.profState + 1), (16, 4, s.su.release),
    (24, 1, mark s.com.full), (25, 1, mark s.pow.unset)] ∧
  wordAt w 2 = packed [(0, 1, mark s.lock.imageProgram), (1, 1, mark s.lock.imageErase), (2, 1, mark s.lock.bootRewrite),
    (3, 1, mark s.lock.journalRetain), (8, 8, s.lock.shieldS), (16, 8, s.lock.shieldE), (24, 5, s.lock.bootEnd)] ∧
  (∀ c : ClassId,
    let r := s.stg.rings.get c
    ((s.prof.classes.get c).configured = true → wordAt w (5 + 3 * c.val) = r.next ∧ wordAt w (6 + 3 * c.val) = r.committed ∧
      wordAt w (7 + 3 * c.val) = packed [(0, 13, r.staged), (16, 13, r.reserved), (31, 1, mark r.present)]) ∧
    ((s.prof.classes.get c).configured = false → ∀ j, j < 3 → wordAt w (5 + 3 * c.val + j) = 0#32) ∧
    wordAt w (17 + c.val) = ((s.stg.last.get .svp).get c).getD 0#32 ∧ wordAt w (21 + c.val) = ((s.stg.last.get .mnp).get c).getD 0#32) ∧
  (let staged (p : Port) (c : ClassId) := mark ((s.stg.last.get p).get c).isSome
   wordAt w 25 = packed [(0, 1, staged .svp 0), (1, 1, staged .svp 1), (2, 1, staged .svp 2), (3, 1, staged .svp 3), (4, 1, staged .mnp 0),
     (5, 1, staged .mnp 1), (6, 1, staged .mnp 2), (7, 1, staged .mnp 3), (8, 4, s.stg.outbox.length), (16, 16, s.stg.lost)]) ∧
  wordAt w 26 = packed [(0, 16, s.com.headBlock), (16, 5, s.com.headPage)] ∧
  wordAt w 27 = packed [(0, 16, s.com.tail), (16, 5, s.com.skip.length)] ∧
  wordAt w 28 = s.com.oldest.getD 0#32 ∧ wordAt w 29 = packed [(0, 16, s.com.ahead), (16, 1, mark s.com.oldest.isNone)]

/-- The words 30 to 61 of a mirror copy (R196): burn results, the counts of the DRAM, contact levels, the quiet count and, for the
attention set that the copy shows, the causes present with the generations recorded. -/
def ShowsCounts (s : State) (attention : Eight AttState) (w : List Word) : Prop :=
  (∀ j, j < 8 →
    (∀ r : BurnResult, s.img.results[j]? = some r →
      wordAt w (30 + 2 * j) = packed [(0, 8, r.block), (8, 4, r.code)] ∧ wordAt w (31 + 2 * j) = packed [(0, 16, r.sum.toNat)]) ∧
    (s.img.results[j]? = none → wordAt w (30 + 2 * j) = 0#32 ∧ wordAt w (31 + 2 * j) = 0#32)) ∧
  wordAt w 46 = packed [(0, 16, s.dram.corrected), (16, 16, s.dram.uncorrectable)] ∧
  (let level (i : ClassId) := mark (decide ((s.prof.contacts.get i).mode ≠ .off) && s.con.tracked.get i)
   wordAt w 47 = packed [(0, 16, s.dram.lostRefresh), (16, 1, level 0), (17, 1, level 1), (18, 1, level 2), (19, 1, level 3)]) ∧
  wordAt w 48 = packed [(0, 16, s.quiet.count)] ∧
  wordAt w 49 = packed ([0, 1, 2, 3, 4, 5, 6, 7].map (fun i : Fin 8 => (i.val, 1, mark (decide (attention.get i ≠ .absent))))) ∧
  (∀ i : Fin 8, (∀ g, attention.get i = .recorded g → wordAt w (50 + i.val) = g) ∧
    ((∀ g, attention.get i ≠ .recorded g) → wordAt w (50 + i.val) = 0#32)) ∧
  ∀ j, 58 ≤ j → j ≤ 61 → wordAt w j = 0#32

/-- A change of the head, of the erased-ahead count, of the oldest retained page sequence or of a ring's state marks the mirror dirty
(R20, R47, R173). -/
def HeadMarked (s t : State) : Prop :=
  (t.com.headBlock ≠ s.com.headBlock ∨ t.com.headPage ≠ s.com.headPage ∨ t.com.ahead ≠ s.com.ahead ∨ t.com.oldest ≠ s.com.oldest ∨
    t.stg.rings ≠ s.stg.rings) → t.mir.dirty = true

/-- The words of a run that one read classifies as Corrected, as Uncorrectable (R132). -/
def correctedCount (rs : List (Nat × EccResult)) : Nat :=
  (rs.filter (fun x => match x.2 with | .corrected _ => true | _ => false)).length
def badCount (rs : List (Nat × EccResult)) : Nat := (rs.filter (·.2.bad)).length

/-- The correction queue after a read (R133): each word read as Corrected, in address order, joins the tail where its offset is not in
the queue and fewer than four wait. -/
def correctionsAfter (q : List Nat) (rs : List (Nat × EccResult)) : List Nat :=
  rs.foldl (fun q x => match x.2 with
    | .corrected _ => if x.1 ∈ q ∨ 4 ≤ q.length then q else q ++ [x.1]
    | _ => q) q

/-- The round position moves on (R41, R42): to the next configured class, or past the highest to class 0, where under WRR a new round
gives every class its weight in credits. -/
def Moved (p : Profile) (alg : CommitAlg) (d e : Sched) : Prop :=
  e.begun = false ∧ e.deficits = d.deficits ∧
  ((d.pos < e.pos ∧ (p.classes.get e.pos).configured = true ∧
      (∀ j, d.pos < j → j < e.pos → (p.classes.get j).configured = false) ∧ e.credits = d.credits) ∨
   ((∀ j, d.pos < j → (p.classes.get j).configured = false) ∧ e.pos = 0 ∧
      e.credits = if alg = .wrr then p.classes.map (·.weight) else d.credits))

/-- What WRR comes to from a scheduler state (R41): the position moves past every class with an empty queue or no credit, and stays at
the first class with a record and a credit. -/
inductive WrrFinds (s : State) : Sched → Sched → Prop
  | here (d : Sched) : s.queued d.pos = true → 0 < d.credits.get d.pos → WrrFinds s d d
  | past (d e f : Sched) : s.queued d.pos = false ∨ d.credits.get d.pos = 0 → Moved s.prof .wrr d e → WrrFinds s e f → WrrFinds s d f

/-- What DWRR comes to from a scheduler state (R42): a turn in progress goes on; a turn that begins at a class with a record adds the
quantum to its deficit once; a class with an empty queue gets the deficit 0 and the position moves on. -/
inductive DwrrFinds (s : State) : Sched → Sched → Prop
  | goesOn (d : Sched) : d.begun = true → s.queued d.pos = true → DwrrFinds s d d
  | begins (d : Sched) : d.begun = false → s.queued d.pos = true → DwrrFinds s d { d with
      begun := true
      deficits := d.deficits.set d.pos (d.deficits.get d.pos + (s.prof.classes.get d.pos).quantum) }
  | past (d e f : Sched) : s.queued d.pos = false → Moved s.prof .dwrr { d with deficits := d.deficits.set d.pos 0 } e →
      DwrrFinds s e f → DwrrFinds s d f

end Sys2Proof.Machine.Claims

section Statements

open Sys2Proof Sys2Proof.Machine Sys2Proof.Machine.Claims

/-! ## The step, the queue, reset -/

/-- A step takes the command at the front of the queue and is that command's effect on the state with the rest of the queue. -/
def Obligations.StepRunsFrontCommand : Prop :=
  ∀ (c : Instr) (rest : List Instr) (s : State), step { s with pending := c :: rest } = exec c { s with pending := rest }

/-- No command touches the queue of commands. -/
def Obligations.CommandsKeepTheQueue : Prop :=
  ∀ (c : Instr) (s t : State), exec c s = .next t → t.pending = s.pending

/-- On an empty queue one millisecond passes (log 3): the time base counts up and wraps (R17), every timer that runs moves by
one up to its limit, and nothing that is no timer changes. While the main clock runs: the relapse timer (R154), the assembly timers,
which with a limit of 0 count on (R13), the flush deadline of a FILLING buffer that holds records (R46), and the running time of a
program or an erase (R74); in RUN besides the quiet timer (R170) and the idle timer of each OPEN slot (R85). In DOZE the wake timer
(R158). In every state the pulse (R172), the debounce times (R166), and in self-refresh the residency (R148). -/
def Obligations.IdleStepIsOneMillisecond : Prop :=
  ∀ s : State, s.pending = [] → s.su.supply ≠ .off →
    let clock := s.su.supply = .running ∧ s.pow.state ≠ .doze ∧ s.pow.state ≠ .pfHalt
    let run := s.su.supply = .running ∧ s.pow.state = .run
    ∃ t, step s = .next t ∧
    t = { s with
      pow := { s.pow with time := t.pow.time, relapse := t.pow.relapse, wakeTimer := t.pow.wakeTimer }
      ctx := t.ctx
      com.filling := t.com.filling
      flash.current := t.flash.current
      img.slots := t.img.slots
      quiet := { s.quiet with remaining := t.quiet.remaining, pulse := t.quiet.pulse }
      con.debounce := t.con.debounce
      dram.residency := t.dram.residency } ∧
    t.pow.time = s.pow.time + 1#48 ∧
    (clock → s.pow.state ≠ .starting → t.pow.relapse = min s.prof.relapseInterval (s.pow.relapse + 1)) ∧
    (¬ clock ∨ s.pow.state = .starting → t.pow.relapse = s.pow.relapse) ∧
    (s.pow.state = .doze → t.pow.wakeTimer = s.pow.wakeTimer.map (fun x => min (s.prof.wakeInterval * 1000) (x + 1))) ∧
    (s.pow.state ≠ .doze → t.pow.wakeTimer = s.pow.wakeTimer) ∧
    (run → t.quiet.remaining = s.quiet.remaining.map (fun x => x - 1)) ∧
    (¬ run → t.quiet.remaining = s.quiet.remaining) ∧
    t.quiet.pulse = s.quiet.pulse.map (fun x => min 10 (x + 1)) ∧
    (∀ p c, (clock → t.context p c = (s.context p c).map (fun x => { x with
        elapsed := if s.prof.assemblyLimit = 0 then x.elapsed + 1 else min s.prof.assemblyLimit (x.elapsed + 1) })) ∧
      (¬ clock → t.context p c = s.context p c)) ∧
    (∀ f, clock → f.recs ≠ [] → s.com.filling = some f →
      t.com.filling = some { f with flush := min s.prof.flushDeadline (f.flush + 1) }) ∧
    (¬ clock ∨ s.com.fillingHolds = false → t.com.filling = s.com.filling) ∧
    (∀ r, s.flash.current = some r →
      (clock → r.job.isErase = true → t.flash.current = some { r with time := min 50 (r.time + 1) }) ∧
      (clock → (∃ b p ws, r.job = .pageProgram b p ∨ r.job = .burnProgram b p ws) →
        t.flash.current = some { r with time := min 2 (r.time + 1) }) ∧
      (r.job.isErase = false → (∀ b p ws, r.job ≠ .pageProgram b p ∧ r.job ≠ .burnProgram b p ws) → t.flash.current = some r)) ∧
    (¬ clock ∨ s.flash.current = none → t.flash.current = s.flash.current) ∧
    (∀ i, (∀ b x, run → s.img.slots.get i = .opened b x →
        t.img.slots.get i = .opened b (min (s.prof.imageIdle * 1000) (x + 1))) ∧
      (¬ run ∨ (∀ b x, s.img.slots.get i ≠ .opened b x) → t.img.slots.get i = s.img.slots.get i)) ∧
    (∀ i, t.con.debounce.get i = (s.con.debounce.get i).map (fun x => min (s.prof.contacts.get i).debounce (x + 1))) ∧
    t.dram.residency = if s.dram.mode = .selfRefresh then min 1 (s.dram.residency + 1) else s.dram.residency

/-- What the manual gives each block right after power-on (R7, R17, R20, R30, R36, R38, R45, R53, R54, R63, R80, R95, R99, R110,
R126, R131, R133, R142, R145, R146, R151, R167, R170, R172, R173, R176, R178). -/
def Obligations.ResetValues : Prop :=
  let s := State.reset
  s.pending = [] ∧ s.ports = ⟨emptyPort, emptyPort⟩ ∧ (∀ p c, s.context p c = none) ∧
  s.stg.queue = [] ∧ s.stg.writing = none ∧ (∀ p c, (s.stg.last.get p).get c = none) ∧ s.stg.outbox = [] ∧ s.stg.lost = 0 ∧
  (∀ c, s.com.queues.get c = []) ∧ s.com.skip = [] ∧ s.com.full = false ∧ s.com.inflight = none ∧ s.com.closed = [] ∧
  s.flash.current = none ∧ s.flash.suspended = none ∧
  s.flash.portReads = [] ∧ s.flash.journal = [] ∧ s.flash.upkeep = [] ∧ s.flash.burn = [] ∧ s.flash.startup = [] ∧
  (∀ i, s.img.slots.get i = .empty) ∧ s.img.queue = [] ∧ s.img.burn = none ∧ s.img.results = [] ∧
  s.lock = ⟨false, false, false, false, 1, 255, 0⟩ ∧
  (∀ i, (s.dram.rows.get i).row = none) ∧ [s.dram.rows.c0.rank, s.dram.rows.c1.rank, s.dram.rows.c2.rank, s.dram.rows.c3.rank] = [1, 2, 3, 4] ∧
  (∀ r, s.dram.passover.get r = 0) ∧ s.dram.correction = [] ∧ s.dram.corrected = 0 ∧ s.dram.uncorrectable = 0 ∧
  s.dram.lostRefresh = 0 ∧ s.dram.patrol = 0 ∧ s.dram.scrub = 0 ∧ s.dram.timerOn = false ∧
  s.pow.state = .starting ∧ s.pow.time = 0#48 ∧ s.pow.unset = true ∧ s.pow.coarse = false ∧ s.pow.entryPending = false ∧
  (∀ i, s.con.slots.get i = none) ∧ s.quiet.remaining = none ∧ s.quiet.count = 0 ∧ s.quiet.pulse = none ∧
  s.mir.gen = 0#32 ∧ s.mir.last = none ∧ (∀ i, s.mir.attention.get i = .absent) ∧ s.attn = false ∧ s.svrst = false ∧
  s.su.cause = 1 ∧ s.su.dramHeld = false ∧ s.su.ready = false

/-- Every invariant of this file holds right after reset: the canonical memories, the bounded counts, the open-row table, the lock
store's ranges, and the outbox full whenever the LOST count is above 0. -/
def Obligations.ResetSatisfiesInvariants : Prop :=
  State.reset.memoryWf = true ∧ State.reset.bounded = true ∧ rowsWf State.reset.dram.rows = true ∧ State.reset.lockWf = true ∧
  State.reset.stg.outbox.length ≤ 8 ∧ (0 < State.reset.stg.lost → State.reset.stg.outbox.length = 8)

/-! ## Invariants of every step -/

/-- Every step keeps both memories in canonical form. -/
def Obligations.StepKeepsMemoryCanonical : Prop :=
  ∀ s t : State, s.memoryWf = true → step s = .next t → t.memoryWf = true

/-- Every step keeps the counts and lists in the ranges their rules give (R31, R34, R45, R53, R95, R110, R132, R133, R142, R145,
R170). -/
def Obligations.StepKeepsCountsBounded : Prop :=
  ∀ s t : State, s.bounded = true → step s = .next t → t.bounded = true

/-- Every step keeps the open-row table in order: no bank twice, ranks 1 to 4 once each (R126, R127). -/
def Obligations.StepKeepsOpenRowTable : Prop :=
  ∀ s t : State, rowsWf s.dram.rows = true → step s = .next t → rowsWf t.dram.rows = true

/-- R103: no step clears a forbid, widens the shield window or lowers the boot cluster end, but for the blank check that grants
field release during start-up, and the values stay in their ranges. -/
def Obligations.LockStoreOnlyTightens : Prop :=
  ∀ s t : State, s.lockWf = true → step s = .next t →
    t.lockWf = true ∧
    (oneWay s.lock t.lock = true ∨
      (s.pending.head? = some .blankCheckEnd ∧ s.su.phase = .release ∧ t.lock = ⟨false, false, false, false, 1, 255, 0⟩))

/-! ## Ports (R109 to R122) -/

/-- PORT_REQUEST_ARRIVAL (R110, R122): with fewer than four requests queued, nothing stalled and the ports accepting, the
request joins the tail; otherwise it stays on its bus. Nothing else changes, but for an MNP request that joins the queue in
DOZE, which asks for self-refresh exit and is the wake cause where none is recorded (R120, R159), or between the commit point
and DOZE, where it is held (R156, log 15). A request that no master can present (R109) is refused by name (log 24). -/
def Obligations.ArrivalJoinsOrStalls : Prop :=
  ∀ (s : State) (r : Request), (r.wf = false → exec (.portRequestArrival r) s = .refused .illFormed) ∧
    (r.wf = true →
    let ps := s.ports.get r.port
    let joined : State := { s with ports := s.ports.set r.port { ps with queue := ps.queue ++ [r] } }
    (s.su.supply = .running → ps.bus = [] → ps.queue.length < 4 →
      (r.port = .svp → exec (.portRequestArrival r) s = .next joined) ∧
      (r.port = .mnp → s.dram.entryReq = some .doze → exec (.portRequestArrival r) s =
        .next { joined with pow := { s.pow with heldEvents := s.pow.heldEvents ++ [.mnpArrived] } }) ∧
      (r.port = .mnp → s.dram.entryReq ≠ some .doze → s.pow.state ≠ .doze → exec (.portRequestArrival r) s = .next joined) ∧
      (r.port = .mnp → s.dram.entryReq ≠ some .doze → s.pow.state = .doze → exec (.portRequestArrival r) s =
        .next { joined with
          pow := { s.pow with wakeCause := some (s.pow.wakeCause.getD 1) }
          dram := { s.dram with exitReq := true } })) ∧
    ((s.su.supply ≠ .running ∨ ps.bus ≠ [] ∨ 4 ≤ ps.queue.length) → exec (.portRequestArrival r) s =
      .next { s with ports := s.ports.set r.port { ps with bus := ps.bus ++ [r] } }))

/-- R119, R120, R156: the power state and the SVRST pulse decide, and a refused request is answered at once; in DOZE, and from
the commit point on, neither port takes a request. -/
def Obligations.GatingFollowsPowerState : Prop :=
  ∀ (s : State) (p : Port) (r : Request) (rest : List Request),
    Current s p r rest →
    (s.pow.state = .doze ∨ s.dram.entryReq = some .doze → ∀ c ∈ takes p, exec c s = .next s) ∧
    (s.dram.entryReq ≠ some .doze →
    (s.pow.state = .starting → exec (.powerGatingRefusal p) s = .next (refusedAtOnce s p rest .notready)) ∧
    (s.pow.state = .run → p = .svp → s.svrst = true → exec (.powerGatingRefusal p) s = .next (refusedAtOnce s p rest .power)) ∧
    (s.pow.state = .settling ∨ s.pow.state = .roused → p = .svp →
      exec (.powerGatingRefusal p) s = .next (refusedAtOnce s p rest .power)) ∧
    (s.pow.state = .pfDrain ∨ s.pow.state = .pfHalt → exec (.powerGatingRefusal p) s = .next (refusedAtOnce s p rest .power)) ∧
    (s.pow.state = .run ∧ (p = .mnp ∨ s.svrst = false) ∨ (s.pow.state = .settling ∨ s.pow.state = .roused) ∧ p = .mnp →
      s.taking p = lookup s.prof.windows r ∧ exec (.powerGatingRefusal p) s = .next s))

/-- R114: the checks in their order over a window table; R115, R116, R6: where a request that passes them goes, by window kind
and direction, `o` bytes into its window. -/
def Obligations.LookupAndDispatchFollowTheTables : Prop :=
  (∀ (ws : List Window) (r : Request),
    (lookup ws r = .nowindow ↔ ∀ w ∈ ws, w.valid = true → ¬ (w.base ≤ r.addr.toNat ∧ r.addr.toNat < w.base + w.size)) ∧
    ∀ w, findWindow ws r.addr.toNat = some w →
      (w ∈ ws ∧ w.valid = true ∧ w.base ≤ r.addr.toNat ∧ r.addr.toNat < w.base + w.size) ∧
      (w.admits r.port = false → lookup ws r = .portOrSplit .port) ∧
      (w.admits r.port = true → w.base + w.size < r.addr.toNat + 4 * r.len → lookup ws r = .portOrSplit .split) ∧
      (w.admits r.port = true → r.addr.toNat + 4 * r.len ≤ w.base + w.size → w.kind = .image →
        4096 < (r.addr.toNat - w.base) % 4096 + 4 * r.len → lookup ws r = .portOrSplit .split) ∧
      (w.admits r.port = true → r.addr.toNat + 4 * r.len ≤ w.base + w.size →
        (w.kind = .image → (r.addr.toNat - w.base) % 4096 + 4 * r.len ≤ 4096) →
        lookup ws r = dispatchIn w (r.addr.toNat - w.base) r)) ∧
  ∀ (w : Window) (o : Nat) (r : Request),
    (w.kind = .plainRw → dispatchIn w o r = if r.write then .plainWrite ((w.target + o) / 4) else .plainRead ((w.target + o) / 4)) ∧
    (w.kind = .plainRo → dispatchIn w o r = if r.write then .direction else .plainRead ((w.target + o) / 4)) ∧
    (w.kind = .flashRead → dispatchIn w o r = if r.write then .direction else .flashRead (w.target * 1024 + o / 4)) ∧
    (w.kind = .image → dispatchIn w o r = if r.write then .imageWrite (w.target + o / 4096) (o % 4096 / 4)
      else .imageRead (w.target + o / 4096) (o % 4096 / 4)) ∧
    (w.kind = .journal → r.write = false → dispatchIn w o r = .direction) ∧
    (w.kind = .journal → r.write = true → r.len ≠ 1 → dispatchIn w o r = .burst (journalClass w) (o / 4)) ∧
    (w.kind = .journal → r.write = true → r.len = 1 → o / 4 = 0 → dispatchIn w o r = .opening (journalClass w)) ∧
    (w.kind = .journal → r.write = true → r.len = 1 → 1 ≤ o / 4 → o / 4 ≤ 12 →
      dispatchIn w o r = .payload (journalClass w) (o / 4)) ∧
    (w.kind = .journal → r.write = true → r.len = 1 → 13 ≤ o / 4 → dispatchIn w o r = .offRange) ∧
    (w.kind = .mirror → r.write = false → dispatchIn w o r = .mirrorRead ((w.target + o) / 4)) ∧
    (w.kind = .mirror → r.write = true → r.len ≠ 1 ∨ o ≠ 248 → dispatchIn w o r = .mirrorRefusal .protect) ∧
    (w.kind = .mirror → r.write = true → r.len = 1 → o = 248 → r.enables ≠ 0xF#4 → dispatchIn w o r = .mirrorRefusal .width) ∧
    (w.kind = .mirror → r.write = true → r.len = 1 → o = 248 → r.enables = 0xF#4 → dispatchIn w o r = .ackWrite ((w.target + o) / 4))

/-- R114, R115, R116, R6: a request that lookup or direction refuses is answered at once and reaches no other block. -/
def Obligations.RefusalsAnsweredAtOnce : Prop :=
  ∀ (s : State) (p : Port) (r : Request) (rest : List Request), Current s p r rest → s.gate p = .serve →
    (lookup s.prof.windows r = .nowindow → exec (.nowindow p) s = .next (refusedAtOnce s p rest .nowindow)) ∧
    (∀ x, lookup s.prof.windows r = .portOrSplit x → exec (.portOrSplitRefusal p) s = .next (refusedAtOnce s p rest x)) ∧
    (lookup s.prof.windows r = .direction → exec (.directionRefusal p) s = .next (refusedAtOnce s p rest .direction)) ∧
    (∀ x, lookup s.prof.windows r = .mirrorRefusal x → exec (.mirrorWriteRefusal p) s = .next (refusedAtOnce s p rest x)) ∧
    (lookup s.prof.windows r = .offRange → exec (.journalOffsetRangeRefusal p) s = .next (refusedAtOnce s p rest .range))

/-- R115, R116, R111: a port's DRAM access waits at that port's requester: the burst, or for a single word without all byte
enables a read-modify-write. -/
def Obligations.PortAccessWaitsAtItsRequester : Prop :=
  ∀ (s : State) (p : Port) (r : Request) (rest : List Request), Current s p r rest → s.gate p = .serve →
    (∀ off, lookup s.prof.windows r = .plainRead off → exec (.plainRead p) s = .next (presented s p .plain (.read off r.len))) ∧
    (∀ off, lookup s.prof.windows r = .plainWrite off → r.len = 1 → r.enables ≠ 0xF#4 →
      exec (.plainWrite p) s = .next (presented s p .plain (.rmw off (wordAt r.data 0) r.enables))) ∧
    (∀ off, lookup s.prof.windows r = .plainWrite off → r.len ≠ 1 ∨ r.enables = 0xF#4 →
      exec (.plainWrite p) s = .next (presented s p .plain (.write off r.data))) ∧
    (∀ off, lookup s.prof.windows r = .mirrorRead off → exec (.mirrorRead p) s = .next (presented s p .plain (.read off r.len))) ∧
    (∀ off, lookup s.prof.windows r = .ackWrite off → s.portGrant p = none →
      exec (.acknowledgeWrite p) s = .next (presented s p .ack (.write off r.data)))

/-- R117, R132, R136: the grant of a port's plain read ends. With every word Clean it is answered DONE with the words and
nothing else changes; with Corrected words, with their corrected values, the count rises and each is offered for a write-back;
with an Uncorrectable word it is refused FAULT, the count rises, FAULT is raised and a DRAM-FAULT record is offered. R135: a
whole-word write stores every word and reads none; a read-modify-write stores the enabled bytes over the word read, or with an
Uncorrectable word stores nothing and is refused FAULT. No other word of the DRAM changes. -/
def Obligations.PortGrantEndAnswersThePort : Prop :=
  (∀ (s : State) (p : Port) (r : Request) (rest : List Request) (off len : Nat),
     Carried s p .plain r rest → r.write = false → s.dram.grant = some (.source (Source.ofPort p) (.read off len)) →
     s.dram.entryReq = none →
     let rs := readDram s.dram.cells off len
     ((∀ x ∈ rs, ∃ w, x.2 = .clean w) → exec .portDramGrantEnd s =
       .next { s with ports := answered s p rest (.done (dataOf rs)), dram := { s.dram with grant := none } }) ∧
     ((∀ x ∈ rs, x.2.bad = false) → ∃ t, exec .portDramGrantEnd s = .next t ∧
       t = { s with
         ports := answered s p rest (.done (dataOf rs))
         dram := { s.dram with
           grant := none, corrected := t.dram.corrected, correction := correctionsAfter s.dram.correction rs }
         mir := { s.mir with dirty := t.mir.dirty } } ∧
       (s.dram.corrected ≤ 65535 → t.dram.corrected = min 65535 (s.dram.corrected + correctedCount rs))) ∧
     ((∃ x ∈ rs, x.2.bad = true) → ∃ t, exec .portDramGrantEnd s = .next t ∧
       t = { s with
         ports := answered s p rest (.refused .fault)
         stg := { s.stg with outbox := t.stg.outbox, lost := t.stg.lost }
         dram := { s.dram with
           grant := none, corrected := t.dram.corrected, correction := correctionsAfter s.dram.correction rs
           uncorrectable := t.dram.uncorrectable }
         mir := { s.mir with dirty := true, attention := t.mir.attention } } ∧
       (s.dram.corrected ≤ 65535 → t.dram.corrected = min 65535 (s.dram.corrected + correctedCount rs)) ∧
       (s.dram.uncorrectable ≤ 65535 → t.dram.uncorrectable = min 65535 (s.dram.uncorrectable + badCount rs)) ∧
       t.mir.attention.get Cause.fault.ix = .waiting ∧
       ∃ at_ syn, firstBad rs = some (at_, syn) ∧ Offered s t
         (partRecord 0xF2#8 false s.stamp [BitVec.ofNat 32 (at_ * 4), BitVec.ofNat 32 (portCode p), BitVec.ofNat 32 syn.toNat]) [.fault])) ∧
  (∀ (s : State) (p : Port) (r : Request) (rest : List Request), Carried s p .plain r rest → r.write = true →
     s.memoryWf = true → s.dram.entryReq = none →
     (∀ off ws, s.dram.grant = some (.source (Source.ofPort p) (.write off ws)) → ∃ t, exec .portDramGrantEnd s = .next t ∧
       t = { s with
         ports := answered s p rest (.done [])
         dram := { s.dram with grant := none, cells := t.dram.cells } } ∧
       (∀ a, off ≤ a → a < off + ws.length → readCell dramDefault t.dram.cells a = encodeWord (wordAt ws (a - off))) ∧
       (∀ a, a < off ∨ off + ws.length ≤ a → readCell dramDefault t.dram.cells a = readCell dramDefault s.dram.cells a)) ∧
     (∀ off w en, s.dram.grant = some (.source (Source.ofPort p) (.rmw off w en)) → ∃ t, exec .portDramGrantEnd s = .next t ∧
       (∀ a, a ≠ off → readCell dramDefault t.dram.cells a = readCell dramDefault s.dram.cells a) ∧
       ((readCode (readCell dramDefault s.dram.cells off)).bad = false →
         readCell dramDefault t.dram.cells off =
           encodeWord (mergeWord (readCode (readCell dramDefault s.dram.cells off)).word w en) ∧
         t.dram.correction = s.dram.correction ∧
         t = { s with
           ports := answered s p rest (.done [])
           dram := { s.dram with grant := none, cells := t.dram.cells, corrected := t.dram.corrected }
           mir := { s.mir with dirty := t.mir.dirty } }) ∧
       ((readCode (readCell dramDefault s.dram.cells off)).bad = true →
         t.dram.cells = s.dram.cells ∧ t.ports = answered s p rest (.refused .fault) ∧
         (s.dram.uncorrectable ≤ 65535 → t.dram.uncorrectable = min 65535 (s.dram.uncorrectable + 1)) ∧
         t.mir.attention.get Cause.fault.ix = .waiting)))

/-- R116, R177: the acknowledge word has been carried into DRAM: the request is answered DONE and the Mirror Writer acts on the
value written. The value of the last completed generation removes every cause recorded at a generation other than that of a
write in progress; waiting causes stay, and any other value does nothing. Log 12: ACKNOWLEDGE_WRITE, issued again, ends the grant. -/
def Obligations.AcknowledgeRemovesRecordedCauses : Prop :=
  ∀ (s : State) (p : Port) (r : Request) (rest : List Request) (off : Nat) (g : Word),
    Carried s p .ack r rest → r.data = [g] → s.dram.grant = some (.source (Source.ofPort p) (.write off [g])) →
    s.memoryWf = true → s.dram.entryReq = none → ∃ t, exec (.acknowledgeWrite p) s = .next t ∧ exec .portDramGrantEnd s = .next t ∧
    t = { s with
      ports := answered s p rest (.done [])
      dram := { s.dram with grant := none, cells := t.dram.cells }
      mir := { s.mir with attention := t.mir.attention, dirty := t.mir.dirty } } ∧
    readCell dramDefault t.dram.cells off = encodeWord g ∧
    (∀ a, a ≠ off → readCell dramDefault t.dram.cells a = readCell dramDefault s.dram.cells a) ∧
    (s.mir.last ≠ some g → t.mir = s.mir) ∧
    (s.mir.last = some g → ∀ i,
      (s.mir.attention.get i = .waiting → t.mir.attention.get i = .waiting) ∧
      (∀ n, s.mir.attention.get i = .recorded n → (s.mir.write = none ∨ n ≠ s.mir.gen) →
        t.mir.attention.get i = .absent ∧ t.mir.dirty = true) ∧
      (∀ n, s.mir.attention.get i = .recorded n → s.mir.write ≠ none → n = s.mir.gen → t.mir.attention.get i = .recorded n))

/-! ## Journal windows and assembly (R3 to R19) -/

/-- R8, R9, R14, R22: an opening word at an open context first abandons its record with cause REOPEN, whatever becomes of the
word. At the empty context the checks come in their order; then the reservation, which class 0 grants from five unclaimed slots
up and the others from one; then the context opens, or with n = 0 the record completes at once. -/
def Obligations.OpeningWordCheckedReservedOpened : Prop :=
  ∀ (s : State) (p : Port) (r : Request) (rest : List Request) (c : ClassId),
    Current s p r rest → s.gate p = .serve → lookup s.prof.windows r = .opening c →
    (∀ x, s.context p c = some x →
      ∃ u, Abandoned s u p c x 1 ∧ Current u p r rest ∧ u.context p c = none ∧ exec (.openingWord p) s = exec (.openingWord p) u) ∧
    (s.context p c = none →
    let w := wordAt r.data 0
    let kind := kindOf w
    let whole := r.enables = 0xF#4
    let known := 1 ≤ kind.toNat ∧ kind.toNat ≤ 0xEE
    let fits := ¬ (kind = 0xEE#8 ∧ p = .mnp) ∧ ¬ (kind = 0xEE#8 ∧ lengthOf w ≠ 2) ∧ lengthOf w ≤ 12
    let refuse (x : Reason) := exec (.openingWord p) s = .next (refusedAtOnce s p rest x)
    (¬ whole → refuse .width) ∧
    (whole → ¬ known → refuse .kind) ∧
    (whole → kind = 0xEE#8 → p = .mnp → refuse .protect) ∧
    (whole → kind = 0xEE#8 → p = .svp → lengthOf w ≠ 2 → refuse .kind) ∧
    (whole → known → kind ≠ 0xEE#8 → 12 < lengthOf w → refuse .range) ∧
    (whole → known → fits → (s.prof.classes.get c).admits p = false → refuse .port) ∧
    (whole → known → fits → (s.prof.classes.get c).admits p = true → s.unclaimed c < (if c = 0 then 5 else 1) → refuse .full) ∧
    (whole → known → fits → (s.prof.classes.get c).admits p = true → (if c = 0 then 5 else 1) ≤ s.unclaimed c →
      (1 ≤ lengthOf w → exec (.openingWord p) s = .next (doneIn s p rest { reservedOne s c with
        ctx := s.ctx.set p ((s.ctx.get p).set c (some ⟨kind, lengthOf w, urgentOf w, List.replicate 12 none, 0⟩)) })) ∧
      (lengthOf w = 0 → exec (.openingWord p) s = .next (doneIn s p rest (completed (reservedOne s c) p c kind (urgentOf w) [])))))

/-- R10, R12, R19: a payload word is refused ORDER at an empty context, RANGE beyond n, WIDTH without all byte enables; else it
is stored, and the word that makes the set of words 1..n complete completes the record. -/
def Obligations.PayloadWordStoredOrCompletes : Prop :=
  ∀ (s : State) (p : Port) (r : Request) (rest : List Request) (c : ClassId) (k : Nat),
    Current s p r rest → s.gate p = .serve → lookup s.prof.windows r = .payload c k →
    (s.context p c = none → exec (.payloadWord p) s = .next (refusedAtOnce s p rest .order)) ∧
    ∀ x, s.context p c = some x →
      let y : OpenCtx := { x with words := x.words.set (k - 1) (some (wordAt r.data 0)) }
      (x.n < k → exec (.payloadWord p) s = .next (refusedAtOnce s p rest .range)) ∧
      (k ≤ x.n → r.enables ≠ 0xF#4 → exec (.payloadWord p) s = .next (refusedAtOnce s p rest .width)) ∧
      (k ≤ x.n → r.enables = 0xF#4 → (∃ v ∈ y.words.take y.n, v = none) →
        exec (.payloadWord p) s = .next (doneIn s p rest { s with ctx := s.ctx.set p ((s.ctx.get p).set c (some y)) })) ∧
      (k ≤ x.n → r.enables = 0xF#4 → ∀ payload : List Word, y.words.take y.n = payload.map some →
        exec (.payloadWord p) s = .next (doneIn s p rest (completed s p c x.kind x.urgent payload)))

/-- R11, R6: a burst is taken word by word in address order up to the first word refused, the words before it stand, and it is
answered once; a word counts as a whole word. One word at offset 0 is an opening word, at 1 to 12 a payload word, at 13 and up
it is refused RANGE and changes nothing. R12: a burst from offset 0 whose opening word passes its checks and is granted a slot,
with all n payload words behind it, completes the record; a word after them is refused ORDER and the record stands all the same. -/
def Obligations.JournalBurstTakenWordByWord : Prop :=
  ((∀ (s : State) (p : Port) (r : Request) (rest : List Request) (c : ClassId) (k : Nat),
     Current s p r rest → s.gate p = .serve → lookup s.prof.windows r = .burst c k →
     let out := State.journalWords p c k r.data { s with pow := { s.pow with relapse := relapseAfter s p } }
     exec (.journalBurst p) s =
       .next { out.2 with ports := answered s p rest (match out.1 with | none => .done [] | some x => .refused x) }) ∧
   (∀ (s : State) (p : Port) (c : ClassId) (k : Nat) (w : Word) (ws : List Word),
     State.journalWords p c k [] s = (none, s) ∧
     (∀ u, s.journalWord p c k true w = (none, u) → State.journalWords p c k (w :: ws) s = State.journalWords p c (k + 1) ws u) ∧
     (∀ x u, s.journalWord p c k true w = (some x, u) → State.journalWords p c k (w :: ws) s = (some x, u)) ∧
     (k = 0 → s.journalWord p c k true w = s.openRecord p c true w) ∧
     (1 ≤ k → k ≤ 12 → s.journalWord p c k true w = s.putPayload p c k true w) ∧
     (13 ≤ k → s.journalWord p c k true w = (some .range, s)))) ∧
  (∀ (s : State) (p : Port) (c : ClassId) (w : Word) (payload : List Word),
     s.context p c = none → openingRefusal (s.prof.classes.get c) p true w = none → openingNeeds c ≤ s.unclaimed c →
     payload.length = lengthOf w →
     (State.journalWords p c 0 (w :: payload) s = (none, completed (reservedOne s c) p c (kindOf w) (urgentOf w) payload)) ∧
     (lengthOf w ≤ 11 → ∀ v more, State.journalWords p c 0 (w :: (payload ++ v :: more)) s =
       (some .order, completed (reservedOne s c) p c (kindOf w) (urgentOf w) payload)))

/-- R13, R14, log 3: when the assembly timer reaches the limit, the time up to it having passed, the record is abandoned with
cause LIMIT; with a limit of 0 nothing expires. -/
def Obligations.AssemblyLimitAbandonsRecord : Prop :=
  ∀ (s : State) (p : Port) (c : ClassId) (x : OpenCtx), s.context p c = some x →
    (s.clockRuns = true → s.prof.assemblyLimit ≠ 0 → ∃ u y t, u = s.pass (s.prof.assemblyLimit - x.elapsed) ∧
      u.context p c = some y ∧ y = { x with elapsed := s.prof.assemblyLimit } ∧
      Abandoned u t p c y 2 ∧ exec (.assemblyLimitExpiry p c) s = .next t) ∧
    (s.prof.assemblyLimit = 0 → exec (.assemblyLimitExpiry p c) s = .next s)

/-! ## Staging (R20 to R37) -/

/-- R24, R25, R37: with staging open, which RUN, SETTLING, ROUSED and PF-DRAIN decide alone, and no ring write in progress, the record at the front takes its class's next sequence, and the
16 words of its slot, at ring base plus 64 times the sequence modulo the capacity, wait at the STAGER requester. -/
def Obligations.RingWriteTakesNextSequence : Prop :=
  ∀ (s : State) (e : RingEntry) (q : List RingEntry),
    s.stg.queue = e :: q → s.stg.writing = none → s.su.supply = .running →
    (s.pow.state = .run ∨ s.pow.state = .settling ∨ s.pow.state = .roused ∨ s.pow.state = .pfDrain) →
    let next := (s.stg.rings.get e.cls).next
    let k := s.prof.classes.get e.cls
    let request : DramReq := .write (k.base / 4 + next.toNat % k.capacity * 16) (slotWords e.body next)
    exec .ringWriteStart s = .next { s with
      stg := { s.stg with writing := some next }
      dram := { s.dram with waiting := s.dram.waiting.set .stager (some request) } }

/-- R27, R192, R193, R43, R188: the slot of a record with at most 12 payload words has 16 words; read back it is no damaged
slot, gives the record's sequence, urgent flag and words, and recovery accepts it, for every kind that a ring can hold. -/
def Obligations.StoredSlotReadsBackIntact : Prop :=
  ∀ (r : Record) (q : Seq) (c : ClassId) (rs : List (Nat × EccResult)),
    r.payload.length ≤ 12 → recoverableKind r.kind = true → dataOf rs = slotWords r q → anyBad rs = false →
    (slotWords r q).length = 16 ∧
    (slotWords r q).take (4 + r.payload.length) = packRecord r q ∧ (slotWords r q).drop (4 + r.payload.length) =
      List.replicate (12 - r.payload.length) 0#32 ∧
    slotDamaged rs q = false ∧ slotAccepted rs q = true ∧
    placedOf c q (dataOf rs) = { cls := c, seq := q, urgent := r.urgent, words := packRecord r q } ∧
    (∀ q', q' ≠ q → slotDamaged rs q' = true ∧ slotAccepted rs q' = false)

/-- R25 step 4, R30, R38: when the ring write completes, the slot's words stand in DRAM, and together the next sequence and
the staged count rise, the reservation count falls, the record leaves the ring write queue and joins its class's commit queue,
and a port record's sequence becomes the last staged of its context. A self-refresh entry that waited for the last ring write goes on
(R24, R147; log 15): the rows close, and the refreshes owed follow. The same holds while commit is stalled, a candidate is held or no buffer is
FILLING. With no candidate that a FREE buffer lets in, nothing else of the Commit Engine changes but that a FREE buffer begins to fill (R45) and a
stall not yet noted is (R54). -/
def Obligations.RingWriteCompleteStagesRecord : Prop :=
  ∀ (s : State) (e : RingEntry) (q : List RingEntry) (seq : Seq) (off : Nat),
    s.stg.queue = e :: q → s.stg.writing = some seq → s.memoryWf = true →
    s.dram.grant = some (.source .stager (.write off (slotWords e.body seq))) →
    let queues := s.com.queues.set e.cls (s.com.queues.get e.cls ++ [seq])
    ∃ t, exec .ringWriteComplete s = .next t ∧
    t = { s with
      stg := { s.stg with rings := t.stg.rings, queue := q, writing := none, last := t.stg.last, outbox := t.stg.outbox, lost := t.stg.lost }
      com := t.com
      dram := { s.dram with grant := none, cells := t.dram.cells, rows := t.dram.rows, refresh := t.dram.refresh }
      mir := { s.mir with dirty := true, attention := t.mir.attention } } ∧
    CausesKept s t [.full, .lost] ∧
    (s.com.stalled = false ∨ s.com.full = true → s.com.held = none ∨ s.com.filling = none ∧ 2 ≤ s.com.buffersUsed →
      t.stg.outbox = s.stg.outbox ∧ t.stg.lost = s.stg.lost ∧ t.mir.attention = s.mir.attention ∧
      t.com = { s.com with queues := queues, filling := t.com.filling }) ∧
    (s.com.stalled = true → s.com.full = false → s.com.held = none ∨ s.com.filling = none ∧ 2 ≤ s.com.buffersUsed →
      Offered s t (journalEvent s 4 s.com.headBlock 0) [.full] ∧ t.mir.attention.get Cause.full.ix = .waiting ∧
      t.com = { s.com with queues := queues, filling := t.com.filling, full := true }) ∧
    (s.com.filling.isSome = true ∨ 2 ≤ s.com.buffersUsed → s.com.held = none ∨ s.com.filling = none → t.com.filling = s.com.filling) ∧
    (s.com.filling = none → s.com.buffersUsed < 2 → s.com.held = none → t.com.filling = some ⟨[], 0⟩) ∧
    (s.dram.entryReq = none ∨ q ≠ [] ∨ s.dram.refresh ≠ .none → t.dram.rows = s.dram.rows ∧ t.dram.refresh = s.dram.refresh) ∧
    (s.dram.entryReq ≠ none → q = [] → s.dram.refresh = .none →
      AllClosed s.prof t.dram.rows ∧ t.dram.refresh = if 0 < s.dram.owed then .entry else .none) ∧
    t.stg.rings = s.stg.rings.set e.cls { s.stg.rings.get e.cls with
      next := (s.stg.rings.get e.cls).next + 1#32
      staged := (s.stg.rings.get e.cls).staged + 1
      reserved := (s.stg.rings.get e.cls).reserved - 1 } ∧
    (∀ p, e.port = some p → t.stg.last = s.stg.last.set p ((s.stg.last.get p).set e.cls (some seq))) ∧
    (e.port = none → t.stg.last = s.stg.last) ∧
    (∀ a, off ≤ a → a < off + (slotWords e.body seq).length →
      readCell dramDefault t.dram.cells a = encodeWord (wordAt (slotWords e.body seq) (a - off))) ∧
    (∀ a, a < off ∨ off + (slotWords e.body seq).length ≤ a → readCell dramDefault t.dram.cells a = readCell dramDefault s.dram.cells a)

/-- R32, R22, R34, R37: with staging open, a self-refresh entry asked for or not, and a class 0 slot unclaimed the front record of the outbox takes a reservation and joins
the ring write queue; with the LOST count above 0 a LOST record takes the place that frees and the count returns to 0. -/
def Obligations.OutboxDepartureJoinsRingQueue : Prop :=
  ∀ (s : State) (r : Record) (q : List Record),
    s.stg.outbox = r :: q → s.su.supply = .running →
    (s.pow.state = .run ∨ s.pow.state = .settling ∨ s.pow.state = .roused ∨ s.pow.state = .pfDrain) →
    (s.unclaimed 0 = 0 → exec .outboxDeparture s = .next s) ∧
    (1 ≤ s.unclaimed 0 → exec .outboxDeparture s = .next { reservedOne s 0 with
      stg := { (reservedOne s 0).stg with
        queue := s.stg.queue ++ [{ cls := 0, port := none, body := r }]
        outbox := if s.stg.lost = 0 then q else q ++ [partRecord 0xFA#8 false s.stamp [BitVec.ofNat 32 s.stg.lost]]
        lost := 0 } })

/-- R34: every step keeps the outbox full whenever the LOST count is above 0. -/
def Obligations.LostCountOnlyWithFullOutbox : Prop :=
  ∀ s t : State, s.stg.outbox.length ≤ 8 → (0 < s.stg.lost → s.stg.outbox.length = 8) → step s = .next t →
    t.stg.outbox.length ≤ 8 ∧ (0 < t.stg.lost → t.stg.outbox.length = 8)

/-! ## Commit and the flash journal (R38 to R61) -/

/-- R40 to R43: with a FILLING buffer, no candidate held or being fetched and a record waiting in a configured class, the scheduler
names a class that has one: under SP the lowest-numbered; under WRR the first that the round position comes to with a record and a
credit, a new round giving each class its weight; under DWRR the class whose turn is in progress, or the first that the position comes
to with a record, its deficit raised by its quantum once, while each class passed over gets the deficit 0. Its front record's slot is
read for the COMMIT requester. The profile configures class 0 and gives each configured class a weight of at least 1. -/
def Obligations.SchedulerFetchesWaitingRecord : Prop :=
  ∀ s : State, Awake s → s.com.filling.isSome = true → s.com.held = none → s.com.fetching = none →
    (s.prof.classes.get 0).configured = true → (∀ c, (s.prof.classes.get c).configured = true → 1 ≤ (s.prof.classes.get c).weight) →
    (∃ c, s.queued c = true) →
    ∃ (d : Sched) (c : ClassId) (q : Seq) (more : List Seq),
      s.queued c = true ∧ s.com.queues.get c = q :: more ∧
      (s.alg = .sp → d = s.com.sched ∧ ∀ j, j < c → s.queued j = false) ∧
      (s.alg = .wrr → WrrFinds s s.com.sched d ∧ d.pos = c) ∧
      (s.alg = .dwrr → DwrrFinds s s.com.sched d ∧ d.pos = c) ∧
      exec .schedulerChoice s = .next { s with
        com := { s.com with sched := d, fetching := some { cls := c, seq := q, alg := s.alg } }
        dram := { s.dram with waiting := s.dram.waiting.set .commit (some (.read (s.slotOff c q) 16)) } }

/-- R43, R44, R46: the COMMIT read ends. An intact slot gives its record, a damaged one a DAMAGED stand-in of the same sequence
with the raw opening word. A candidate that fits leaves its queue for the FILLING buffer, and an urgent one closes it; one that
does not fit closes it by FIT and is held, or placed at once in a FREE buffer; a DWRR candidate larger than the deficit ends
the turn and stays unplaced. -/
def Obligations.CandidateReadPlacesOrHolds : Prop :=
  ∀ (s : State) (fetch : Fetch) (f : FillBuf) (off : Nat),
    s.com.fetching = some fetch → s.com.filling = some f → s.com.held = none →
    s.dram.grant = some (.source .commit (.read off 16)) → s.dram.entryReq = none →
    let rs := readDram s.dram.cells off 16
    let raw := codeData (readCell dramDefault s.dram.cells off)
    let x : Placed := if slotDamaged rs fetch.seq then
        { cls := fetch.cls, seq := fetch.seq, urgent := false
          words := packRecord { kind := 0xFB#8, urgent := false, origin := .part, stamp := s.stamp, payload := [raw] } fetch.seq }
      else { cls := fetch.cls, seq := fetch.seq, urgent := urgentOf (wordAt (dataOf rs) 0)
             words := (dataOf rs).take (4 + lengthOf (wordAt (dataOf rs) 0)) }
    ∃ t, exec .candidateReadComplete s = .next t ∧ t.com.fetching = none ∧ t.dram.grant = none ∧
    t.dram.cells = s.dram.cells ∧ t.flash = s.flash ∧ t.stg.rings = s.stg.rings ∧ t.stg.queue = s.stg.queue ∧
    t.pow = s.pow ∧ t.ports = s.ports ∧ t.ctx = s.ctx ∧ t.img = s.img ∧
    ((fetch.alg = .sp ∨ fetch.alg = .wrr) → placedWords f.recs + x.words.length ≤ 58 → x.urgent = false →
      s.pow.state = .run →
      t.com.queues = s.com.queues.set fetch.cls (s.com.queues.get fetch.cls).tail ∧
      t.com.placedSeq = s.com.placedSeq.set fetch.cls fetch.seq ∧ t.com.placedPresent = s.com.placedPresent.set fetch.cls true ∧
      (∃ flush, t.com.filling = some ⟨f.recs ++ [x], flush⟩ ∧ (f.recs = [] → flush = 0)) ∧ t.com.held = none ∧ t.com.closed = s.com.closed ∧
      (fetch.alg = .wrr → (s.com.queues.get fetch.cls).tail ≠ [] →
        t.com.sched.credits.get fetch.cls = s.com.sched.credits.get fetch.cls - 1)) ∧
    ((fetch.alg = .sp ∨ fetch.alg = .wrr) → placedWords f.recs + x.words.length ≤ 58 → x.urgent = true →
      t.com.queues = s.com.queues.set fetch.cls (s.com.queues.get fetch.cls).tail ∧
      ∃ c : Commit, c.placedSeq = s.com.placedSeq.set fetch.cls fetch.seq ∧ c.placedPresent = s.com.placedPresent.set fetch.cls true ∧
        t.com.closed = s.com.closed ++ [headerAt c (f.recs ++ [x]) .urgent]) ∧
    ((fetch.alg = .sp ∨ fetch.alg = .wrr) → 58 < placedWords f.recs + x.words.length → 2 ≤ s.com.buffersUsed →
      t.com.closed = s.com.closed ++ [headerAt s.com f.recs .fit] ∧ t.com.held = some { body := x, alg := fetch.alg } ∧
      t.com.filling = none ∧ t.com.queues = s.com.queues) ∧
    ((fetch.alg = .sp ∨ fetch.alg = .wrr) → 58 < placedWords f.recs + x.words.length → s.com.buffersUsed = 1 →
      x.urgent = false → s.pow.state = .run → x.words.length ≤ 58 →
      t.com.closed = [headerAt s.com f.recs .fit] ∧ t.com.held = none ∧ t.com.filling = some ⟨[x], 0⟩ ∧
      t.com.queues = s.com.queues.set fetch.cls (s.com.queues.get fetch.cls).tail) ∧
    (fetch.alg = .dwrr → s.com.sched.begun = true → s.com.sched.pos = fetch.cls →
      16 + 4 * (x.words.length - 4) ≤ s.com.sched.deficits.get fetch.cls →
      placedWords f.recs + x.words.length ≤ 58 → x.urgent = false → s.pow.state = .run →
      (∃ flush, t.com.filling = some ⟨f.recs ++ [x], flush⟩) ∧
      t.com.queues = s.com.queues.set fetch.cls (s.com.queues.get fetch.cls).tail ∧
      t.com.sched.deficits.get fetch.cls = (if (s.com.queues.get fetch.cls).tail = [] then 0
        else s.com.sched.deficits.get fetch.cls - (16 + 4 * (x.words.length - 4)))) ∧
    (fetch.alg = .dwrr → s.com.sched.begun = true → s.com.sched.pos = fetch.cls →
      s.com.sched.deficits.get fetch.cls < 16 + 4 * (x.words.length - 4) →
      t.com.queues = s.com.queues ∧ t.com.filling = s.com.filling ∧ t.com.held = none ∧ t.com.closed = s.com.closed ∧
      t.com.sched.deficits = s.com.sched.deficits ∧ t.com.sched.begun = false)

/-- R46, log 3: when the flush deadline of a FILLING buffer that holds records expires, the time up to it having passed, the
buffer closes with cause DEADLINE and its header takes the placed sequences as they stand. -/
def Obligations.FlushDeadlineClosesBuffer : Prop :=
  ∀ (s : State) (f : FillBuf), Awake s → s.com.filling = some f → f.recs ≠ [] → s.com.held = none →
    ∃ u t, u = s.pass (s.prof.flushDeadline - f.flush) ∧ exec .flushDeadlineExpiry s = .next t ∧ CommitFrame u t ∧
      t.com.closed = s.com.closed ++ [headerAt s.com f.recs .deadline] ∧
      (t.com.filling = none ∨ t.com.filling = some ⟨[], 0⟩) ∧
      (t.com.filling = none ↔ 2 ≤ s.com.buffersUsed) ∧ t.com.queues = s.com.queues ∧ t.com.inflight = s.com.inflight ∧
      t.stg.rings = s.stg.rings

/-- R47, R48, R50, R54: the CLOSED buffer that closed first, or a waiting retry, with the close cause it had (log 42), takes the head page and the next page sequence;
with the head page at 16 the head first moves to the next erased-ahead block: the skip-list blocks passed over, and no others, leave
the list, which releases held upkeep, the failed count returns to 0 and dirty is set. PROGRAM and VERIFY are offered; a commit that was
full resumes with JOURNAL-EVENT 5. The buffer leaves the CLOSED ones, a retry none. With a FILLING buffer that no drain closes and no
candidate held nothing else of the Commit Engine changes; with none and no other CLOSED buffer a FREE one begins to fill (R45). -/
def Obligations.PageGoesInFlightAtHead : Prop :=
  ∀ s : State, Awake s → s.com.headAvailable = true →
    ∀ (b : ClosedBuf) (retry : Bool),
    (s.com.inflight = none ∧ retry = false ∧ s.com.closed.head? = some b ∨
      ∃ f, s.com.inflight = some f ∧ f.waiting = true ∧ f.buf = b ∧ retry = true) →
    ∃ t, exec .goInFlight s = .next t ∧ CommitFrame s t ∧ t.stg.rings = s.stg.rings ∧
      ∃ block page, t.com.inflight = some { buf := b, pageSeq := s.com.nextPage, block := block, page := page, retry := retry, waiting := false } ∧
        t.com.nextPage = s.com.nextPage + 1#32 ∧ t.com.headBlock = block ∧ t.com.headPage = page ∧
        t.flash = { s.flash with journal := [.pageProgram block page, .pageVerify block page] } ∧
        (s.com.headPage < 16 → block = s.com.headBlock ∧ page = s.com.headPage ∧ t.com.ahead = s.com.ahead ∧ t.com.skip = s.com.skip) ∧
        (s.com.headPage < 16 → t.com.failed = s.com.failed ∧ t.com.upkeepHeld = s.com.upkeepHeld) ∧
        (16 ≤ s.com.headPage → block = s.com.newHead ∧ page = 0 ∧ t.com.ahead = s.com.ahead - 1 ∧ t.com.failed = 0 ∧
          t.mir.dirty = true ∧
          t.com.skip = s.com.skip.filter (fun x => decide (x ∉ passedOver block 1792 s.com.headBlock)) ∧
          ((∀ x ∈ s.com.skip, x ∉ passedOver block 1792 s.com.headBlock) → t.com.upkeepHeld = s.com.upkeepHeld) ∧
          ((∃ x ∈ s.com.skip, x ∈ passedOver block 1792 s.com.headBlock) → t.com.upkeepHeld = false)) ∧
        t.com.full = false ∧ (s.com.full = true → Offered s t (journalEvent s 5 block page)) ∧
        (s.com.full = false → t.stg = s.stg ∧ t.mir.attention = s.mir.attention) ∧
        let left := if retry then s.com.closed else s.com.closed.tail
        (∃ more, t.com.closed = left ++ more) ∧
        (s.com.held = none → s.com.filling.isSome = true → s.drainClose = false →
          t.com = { s.com with
            closed := left, inflight := t.com.inflight, nextPage := t.com.nextPage, headBlock := block, headPage := page
            ahead := t.com.ahead, failed := t.com.failed, skip := t.com.skip, upkeepHeld := t.com.upkeepHeld, full := false }) ∧
        (s.com.held = none → s.com.filling = none →
          t.com.closed = left ∧ (left = [] → t.com.filling = some ⟨[], 0⟩) ∧ (left ≠ [] → t.com.filling = none))

/-- R48, R185, R191, R194: the 64 words of a page in flight, with 1 to 14 records of at most 58 words in all, classify as VALID with
its page sequence, placed sequences and present mask; where that page sequence, its word 0, is FFFFFFFFh, they classify as neither
erased nor valid (log 38). -/
def Obligations.PageInFlightClassifiesValid : Prop :=
  ∀ f : InFlight, 1 ≤ f.buf.recs.length → f.buf.recs.length ≤ 14 → placedWords f.buf.recs ≤ 58 →
    (∀ r ∈ f.buf.recs, r.words.length = 4 + lengthOf (wordAt r.words 0) ∧ lengthOf (wordAt r.words 0) ≤ 12) →
    (pageWords f).length = 64 ∧
    (f.pageSeq ≠ 0xFFFFFFFF#32 →
      classifyPage (pageWords f) = .valid { seq := f.pageSeq, placed := f.buf.placed, mask := f.buf.mask }) ∧
    (f.pageSeq = 0xFFFFFFFF#32 → classifyPage (pageWords f) = .neither)

/-- R55, R58: with the run short of the spare target in RUN, SETTLING or ROUSED, the retain forbid clear, no upkeep job about and
upkeep not held, an ERASE of the tail is offered, and with the forbid set nothing is. The tail is a journal block, not the
head and not on the skip list. -/
def Obligations.UpkeepErasesTheTail : Prop :=
  (∀ s : State, Awake s → s.com.ahead < s.prof.spareTarget → s.pow.state ≠ .pfDrain → s.flash.upkeepBusy = false →
    s.com.upkeepHeld = false →
    (s.lock.journalRetain = false → exec .upkeepEraseRequest s =
      .next { s with flash := { s.flash with upkeep := [.upErase s.com.tail] } }) ∧
    (s.lock.journalRetain = true → exec .upkeepEraseRequest s = .next s)) ∧
  (∀ c : Commit, 256 ≤ c.headBlock → c.headBlock ≤ 2047 → c.skip.length ≤ 16 →
    256 ≤ c.tail ∧ c.tail ≤ 2047 ∧ c.tail ∉ c.skip ∧ c.tail ≠ c.headBlock)

/-- R49, R29: a journal VERIFY that matches confirms the page: the head page advances, no buffer is IN-FLIGHT, every configured
class in the header's mask takes the placed sequence as committed where it is newer, and its staged count falls by the records
committed. -/
def Obligations.MatchingVerifyConfirmsPage : Prop :=
  ∀ (s : State) (f : InFlight), JobAtDevice s (.pageVerify f.block f.page) → s.com.inflight = some f →
    flashPage s.flash.cells f.block f.page = pageWords f →
    ∃ t, exec .verifyEnd s = .next t ∧ CommitFrame s t ∧ t.flash = { s.flash with current := none } ∧
      t.com.inflight = none ∧ t.com.headPage = s.com.headPage + 1 ∧ t.com.begun = true ∧
      (s.com.begun = false → t.com.oldest = some f.pageSeq) ∧ (s.com.begun = true → t.com.oldest = s.com.oldest) ∧
      t.com.nextPage = s.com.nextPage ∧ t.mir.dirty = true ∧
      ∀ c, let r := s.stg.rings.get c
        let q := f.buf.placed.get c
        ((f.buf.mask.get c = false ∨ (s.prof.classes.get c).configured = false) → t.stg.rings.get c = r) ∧
        (f.buf.mask.get c = true → (s.prof.classes.get c).configured = true →
          (r.present = true → newer q r.committed = false → t.stg.rings.get c = r) ∧
          (r.present = true → newer q r.committed = true → t.stg.rings.get c =
            { r with committed := q, staged := r.staged - (q - (r.committed + 1#32) + 1#32).toNat }) ∧
          (r.present = false → t.stg.rings.get c = { r with committed := q, present := true, staged := r.staged - (q + 1#32).toNat }))

/-- R50 to R53, R70: with no candidate held, a journal VERIFY that does not match, and a journal PROGRAM that times out, the time up
to its limit having passed (log 3), fail the page: JOURNAL-EVENT 1,
the head page advances, the failed count rises and the buffer stays IN-FLIGHT as a retry; a failure at page 0 or the second of a
block abandons the block, which joins the skip list while that has room, and sets the head page to 16. -/
def Obligations.FailedPageIsRetried : Prop :=
  ∀ (s : State) (f : InFlight), s.com.inflight = some f → s.com.held = none →
    ∀ (c : Instr) (u : State),
    (c = .verifyEnd ∧ u = s ∧ JobAtDevice s (.pageVerify f.block f.page) ∧ flashPage s.flash.cells f.block f.page ≠ pageWords f ∨
      c = .flashTimeout ∧ JobAtDevice s (.pageProgram f.block f.page) ∧
        ∃ r, s.flash.current = some r ∧ r.abortReq = false ∧ u = s.pass (2 - r.time)) →
    ∃ t, exec c s = .next t ∧ t.com.inflight = some { f with waiting := true } ∧ t.com.nextPage = s.com.nextPage ∧
      t.com.queues = s.com.queues ∧ t.stg.rings = s.stg.rings ∧ t.com.failed = s.com.failed + 1 ∧ t.mir.dirty = true ∧
      (c = .flashTimeout → t.flash.journal = []) ∧ t.flash.current = none ∧
      (f.page ≠ 0 → s.com.failed = 0 → t.com.headPage = s.com.headPage + 1 ∧ t.com.skip = s.com.skip) ∧
      ((f.page = 0 ∨ 1 ≤ s.com.failed) → t.com.headPage = 16 ∧
        (s.com.skip.length < 16 → f.block ∉ s.com.skip → t.com.skip = s.com.skip ++ [f.block]) ∧
        (16 ≤ s.com.skip.length → t.com.skip = s.com.skip)) ∧
      (s.stg.outbox.length < 8 → ∃ more, t.stg.outbox = s.stg.outbox ++ journalEvent u 1 f.block f.page :: more)

/-! ## Flash Operations Unit (R62 to R78) -/

/-- R71, R72, R76: a port's flash read joins the tail of the port read list; with an erase running that has had fewer than 16
suspensions and is not being aborted it asks for a suspension; otherwise nothing else changes. -/
def Obligations.FlashReadQueuesAndMaySuspend : Prop :=
  ∀ (s : State) (p : Port) (r : Request) (rest : List Request) (word : Nat),
    Current s p r rest → s.gate p = .serve → lookup s.prof.windows r = .flashRead word →
    let next (current : Option Running) : State := { s with
      ports := s.ports.set p { s.ports.get p with carry := .flash }
      pow := { s.pow with relapse := relapseAfter s p }
      flash := { s.flash with portReads := s.flash.portReads ++ [.portRead p word r.len], current := current } }
    (∀ x, s.flash.current = some x → x.job.isErase = true → x.suspensions < 16 → x.abortReq = false →
      exec (.flashRead p) s = .next (next (some { x with suspendReq := true }))) ∧
    ((∀ x, s.flash.current = some x → x.job.isErase = false ∨ 16 ≤ x.suspensions ∨ x.abortReq = true) →
      exec (.flashRead p) s = .next (next s.flash.current))

/-- R72, R73, R74: a suspension that takes effect before the erase's limit makes the oldest waiting port read the current job and the
erase the suspended one with one suspension more; an erase that has reached 50 ms is not suspended, and one that PF-DRAIN has stopped meanwhile is (log 27). Each word of the block reads its former value or FFFFFFFFh. R65, R71, R72: a port's READ ends: the
request is answered with the flash words, and a suspended erase resumes, asking for a new suspension at once where another read
waits and it has had fewer than 16; one that is to be aborted does not resume. -/
def Obligations.SuspendedEraseWaitsForOneRead : Prop :=
  (∀ (s : State) (x : Running) (j : Job) (more : List Job) (b : Nat),
     s.flash.current = some x → (x.job = .upErase b ∨ x.job = .burnErase b) → x.suspendReq = true → s.flash.portReads = j :: more →
     (50 ≤ x.time → exec .eraseSuspension s = .next s) ∧ (x.time < 50 → ∃ t, exec .eraseSuspension s = .next t ∧ PartErased s t b ∧
       t = { s with
         flash := { s.flash with
           cells := t.flash.cells
           suspended := some { x with suspendReq := false, suspensions := x.suspensions + 1 }
           current := some ⟨j, 0, 0, false, false⟩
           portReads := more }
         free := s.free + 1 })) ∧
  (∀ (s : State) (p : Port) (r : Request) (rest : List Request) (word len : Nat),
     Carried s p .flash r rest → s.flash.currentJob = some (.portRead p word len) →
     let next (current suspended : Option Running) : State := { s with
       ports := answered s p rest (.done ((List.range len).map (fun i => readCell erasedWord s.flash.cells (word + i))))
       flash := { s.flash with current := current, suspended := suspended } }
     (s.flash.suspended = none → exec .readJobEnd s = .next (next none none)) ∧
     ∀ x, s.flash.suspended = some x →
       (x.abortReq = true → exec .readJobEnd s = .next (next none (some x))) ∧
       (x.abortReq = false → (s.flash.portReads = [] ∨ 16 ≤ x.suspensions ∨ x.job.isErase = false) →
         exec .readJobEnd s = .next (next (some x) none)) ∧
       (x.abortReq = false → s.flash.portReads ≠ [] → x.suspensions < 16 → x.job.isErase = true →
         exec .readJobEnd s = .next (next (some { x with suspendReq := true }) none)))

/-- R70, R76, R58: on a free device the next job is the oldest port read, else the front of the journal list, else the upkeep job
(but an erase in PF-DRAIN or while the JOURNAL-RETAIN forbid is set, which goes on waiting, log 25), else the burn's, else the oldest
start-up job; with none there nothing starts. -/
def Obligations.JobStartTakesFirstInListOrder : Prop :=
  ∀ s : State, s.su.supply = .running → s.dram.entryReq = none → s.pow.state ≠ .doze → s.pow.state ≠ .pfHalt →
    s.flash.current = none → s.flash.suspended = none →
    let start (f : Flash) (j : Job) : State := { s with flash := { f with current := some ⟨j, 0, 0, false, false⟩ } }
    let skipped := s.flash.upkeep = [] ∨
      ((s.pow.state = .pfDrain ∨ s.lock.journalRetain = true) ∧ ∃ b more, s.flash.upkeep = .upErase b :: more)
    (∀ j more, s.flash.portReads = j :: more → exec .jobStart s = .next (start { s.flash with portReads := more } j)) ∧
    (∀ j more, s.flash.portReads = [] → s.flash.journal = j :: more →
      exec .jobStart s = .next (start { s.flash with journal := more } j)) ∧
    (∀ j more, s.flash.portReads = [] → s.flash.journal = [] → s.flash.upkeep = j :: more →
      (j.isErase = false ∨ s.pow.state ≠ .pfDrain ∧ s.lock.journalRetain = false) → exec .jobStart s = .next (start { s.flash with upkeep := more } j)) ∧
    (∀ j more, s.flash.portReads = [] → s.flash.journal = [] → skipped → s.flash.burn = j :: more →
      exec .jobStart s = .next (start { s.flash with burn := more } j)) ∧
    (∀ j more, s.flash.portReads = [] → s.flash.journal = [] → skipped → s.flash.burn = [] → s.flash.startup = j :: more →
      exec .jobStart s = .next (start { s.flash with startup := more } j)) ∧
    (s.flash.portReads = [] → s.flash.journal = [] → skipped → s.flash.burn = [] → s.flash.startup = [] →
      exec .jobStart s = .next s)

/-- R62, R66, R69: a journal PROGRAM that ends writes the page in flight, and an upkeep ERASE that ends erases its block and
offers its blank check; the device is free and nothing else changes. Defects outside the page or the block are refused by name
(log 24). -/
def Obligations.ProgramAndEraseEndWriteTheFlash : Prop :=
  ∀ (s : State) (ds : List Defect), s.memoryWf = true →
    (ds.all (Defect.wf 64) = false → exec (.programEnd ds) s = .refused .illFormed) ∧
    (ds.all (Defect.wf 1024) = false → exec (.eraseEnd ds) s = .refused .illFormed) ∧
    (∀ f, s.com.inflight = some f → JobAtDevice s (.pageProgram f.block f.page) → (pageWords f).length = 64 →
      (ds.all (Defect.wf 64)) = true →
      ∃ t, exec (.programEnd ds) s = .next t ∧ Programmed s t f.block f.page (pageWords f) ds ∧
        t = { s with flash := { s.flash with cells := t.flash.cells, current := none } }) ∧
    (∀ b r, JobAtDevice s (.upErase b) → s.flash.current = some r → r.abortReq = false → (ds.all (Defect.wf 1024)) = true →
      ∃ t, exec (.eraseEnd ds) s = .next t ∧ ErasedBlock s t b ds ∧
        t = { s with flash := { s.flash with cells := t.flash.cells, current := none, upkeep := [.upBlank b] } })

/-- R56, R57, R68, R74: a blank check of upkeep that finds only FFFFFFFFh adds the block to the run and offers the header read of
the new tail; one that does not, and an upkeep erase that times out, the time up to its limit having passed (log 3), report JOURNAL-EVENT 3 and list the block, or with a full
list hold upkeep. A header read takes the page sequence of a page 0 whose page check matches, by the count, walk and check of R185 (log 18), as the oldest, keeps it for an erased one of a begun
journal, and else makes it unknown. -/
def Obligations.UpkeepJobsEnd : Prop :=
  (∀ (s : State) (b : Nat), s.memoryWf = true → JobAtDevice s (.upBlank b) →
    ((∀ i, i < 1024 → readCell erasedWord s.flash.cells (b * 1024 + i) = erasedWord) →
      exec .blankCheckEnd s = .next { s with
        com := { s.com with ahead := s.com.ahead + 1 }
        flash := { s.flash with current := none, upkeep := [.upHeader { s.com with ahead := s.com.ahead + 1 }.tail] }
        mir := { s.mir with dirty := true } }) ∧
    ((∃ i, i < 1024 ∧ readCell erasedWord s.flash.cells (b * 1024 + i) ≠ erasedWord) →
      ∃ t, exec .blankCheckEnd s = .next t ∧ CommitFrame s t ∧ t.flash = { s.flash with current := none } ∧
        Offered s t (journalEvent s 3 b 0) ∧ t.com.ahead = s.com.ahead ∧
        (s.com.skip.length < 16 → b ∉ s.com.skip → t.com = { s.com with skip := s.com.skip ++ [b] } ∧ t.mir.dirty = true) ∧
        (16 ≤ s.com.skip.length → t.com = { s.com with upkeepHeld := true }))) ∧
  (∀ (s : State) (b : Nat) (r : Running), JobAtDevice s (.upErase b) → s.flash.current = some r → r.abortReq = false →
    ∃ u t, u = s.pass (50 - r.time) ∧ exec .flashTimeout s = .next t ∧ PartErased s t b ∧ t.flash.current = none ∧
      Offered u t (journalEvent u 3 b 0) ∧
      (s.com.skip.length < 16 → b ∉ s.com.skip → t.com.skip = s.com.skip ++ [b]) ∧ (16 ≤ s.com.skip.length → t.com.upkeepHeld = true)) ∧
  (∀ (s : State) (b : Nat), JobAtDevice s (.upHeader b) →
    let page := flashPage s.flash.cells b 0
    let oldest : Option Seq :=
      if pageValid page = true then some (wordAt page 0)
      else if (∀ w ∈ page, w = erasedWord) ∧ s.com.begun = true then s.com.oldest
      else none
    exec .readJobEnd s = .next { s with
      com := { s.com with oldest := oldest }
      flash := { s.flash with current := none }
      mir := { s.mir with dirty := s.mir.dirty || decide (oldest ≠ s.com.oldest) } })

/-- R74, R76, R97: a PROGRAM that times out, the time up to its limit having passed (log 3), leaves a torn page; a burn that
PF-DRAIN had stopped has its slot back at the front of the burn queue then, with no result (log 40). An erase that PF-DRAIN stopped ends ABORTED: the block is neither
erased nor intact, the device is free, a burn's slot goes back to the front of the burn queue with no result, and of upkeep nothing
else changes. -/
def Obligations.InterruptedOperationsLeaveTheirContents : Prop :=
  (∀ (s : State) (f : InFlight) (r : Running), s.memoryWf = true → s.com.inflight = some f →
    JobAtDevice s (.pageProgram f.block f.page) → s.flash.current = some r → r.abortReq = false →
    ∃ t, exec .flashTimeout s = .next t ∧ Torn s t f.block f.page (pageWords f) ∧ t.flash.current = none) ∧
  (∀ (s : State) (block page : Nat) (ws : List Word) (r : Running), s.memoryWf = true → JobAtDevice s (.burnProgram block page ws) →
    s.flash.current = some r → r.abortReq = false →
    ∃ u t, u = s.pass (2 - r.time) ∧ exec .flashTimeout s = .next t ∧ Torn s t block page ws ∧ t.flash.current = none ∧
      ∀ b, s.img.burn = some b → b.aborting = true → Requeued u t b ∧ NothingReported u t) ∧
  (∀ (s : State) (r : Running) (b : Nat), (s.flash.current = some r ∨ s.flash.current = none ∧ s.flash.suspended = some r) →
    r.abortReq = true →
    (r.job = .upErase b → ∃ t, exec .eraseAbortEnd s = .next t ∧ PartErased s t b ∧
      t = { s with flash := { s.flash with cells := t.flash.cells, current := none, suspended := none }, free := s.free + 1 }) ∧
    (∀ x, r.job = .burnErase b → s.img.burn = some x → x.aborting = true →
      ∃ t, exec .eraseAbortEnd s = .next t ∧ PartErased s t b ∧ t.flash.current = none ∧ t.flash.suspended = none ∧
        Requeued s t x ∧ NothingReported s t))

/-! ## Images and burns (R80 to R98) -/

/-- R81, R71: a read of a block with a slot waits as a DRAM read of the slot, whatever the slot's state; one of a block with none
joins the port read list; while the other port's allocating write to the block has not ended it waits (R83). R82, R83: a write to
a block with an OPEN slot waits as a DRAM write of the slot; with a QUEUED or BURNING one it is refused BUSY; with no slot it is
refused PROTECT where the lock store forbids the block, FULL with no EMPTY slot, and else opens the lowest EMPTY slot and its fill
with FFFFFFFFh begins; behind the other port's write to the block it waits, and so it does behind an access of the other port that has
waited longer for that block (log 11), and behind nothing else; an access taken up again once nothing is ahead leaves the waiting list and is
judged as at its take, in PF-DRAIN too (log 43). -/
def Obligations.ImageAccessJudgedBySlotAndLock : Prop :=
  (∀ (s : State) (p : Port) (r : Request) (rest : List Request) (b word : Nat),
     Current s p r rest → s.gate p = .serve → lookup s.prof.windows r = .imageRead b word →
     (s.fillAhead p b = true → exec (.imageRead p) s = .next { s with
       ports := s.ports.set p { s.ports.get p with carry := .imageWait }
       img := { s.img with waiting := s.img.waiting ++ [p] }
       pow := { s.pow with relapse := relapseAfter s p } }) ∧
     (s.fillAhead p b = false →
       (∀ i, s.img.slotOf b = some i → exec (.imageRead p) s =
         .next (presented s p .plain (.read (s.prof.shadowBase / 4 + i.val * 1024 + word) r.len))) ∧
       (s.img.slotOf b = none → (∀ x, s.flash.current = some x → x.job.isErase = false) → exec (.imageRead p) s = .next { s with
         ports := s.ports.set p { s.ports.get p with carry := .flash }
         pow := { s.pow with relapse := relapseAfter s p }
         flash := { s.flash with portReads := s.flash.portReads ++ [.portRead p (b * 1024 + word) r.len] } }))) ∧
  (∀ (s : State) (p : Port) (r : Request) (rest : List Request) (b word : Nat),
     Current s p r rest → s.gate p = .serve → lookup s.prof.windows r = .imageWrite b word →
     (s.writeAhead p b = true → exec (.imageWrite p) s = .next { s with
       ports := s.ports.set p { s.ports.get p with carry := .imageWait }
       img := { s.img with waiting := s.img.waiting ++ [p] }
       pow := { s.pow with relapse := relapseAfter s p } }) ∧
     (s.writeAhead p b = false →
       (∀ i t, s.img.slotOf b = some i → s.img.slots.get i = .opened b t → exec (.imageWrite p) s =
         .next (presented s p (.store i) (writeReq (s.prof.shadowBase / 4 + i.val * 1024 + word) r))) ∧
       (∀ i, s.img.slotOf b = some i → (s.img.slots.get i = .queued b ∨ s.img.slots.get i = .burning b) →
         exec (.imageWrite p) s = .next (refusedAtOnce s p rest .busy)) ∧
       (s.img.slotOf b = none → refusesBlock s.lock b → exec (.imageWrite p) s = .next (refusedAtOnce s p rest .protect)) ∧
       (s.img.slotOf b = none → ¬ refusesBlock s.lock b → (∀ i, s.img.slots.get i ≠ .empty) →
         exec (.imageWrite p) s = .next (refusedAtOnce s p rest .full)) ∧
       (∀ i, s.img.slotOf b = none → ¬ refusesBlock s.lock b → s.img.slots.get i = .empty → (∀ j, j < i → s.img.slots.get j ≠ .empty) →
         exec (.imageWrite p) s = .next { presented s p (.fill i 0)
             (.write (s.prof.shadowBase / 4 + i.val * 1024) (List.replicate 16 0xFFFFFFFF#32)) with
           img := { s.img with slots := s.img.slots.set i (.opened b 0) } }))) ∧
  (∀ (s : State) (p : Port) (r : Request) (rest : List Request) (b word : Nat),
     Carried s p .imageWait r rest → s.pow.state ≠ .doze → s.pow.state ≠ .pfHalt →
     let ended (x : Reason) : State := { s with
       ports := answered s p rest (.refused x), img := { s.img with waiting := s.img.waiting.erase p } }
     let goesOn (c : Carry) (slots : Eight SlotState) (q : DramReq) : State := { s with
       ports := s.ports.set p { s.ports.get p with carry := c }
       img := { s.img with slots := slots, waiting := s.img.waiting.erase p }
       dram := { s.dram with waiting := s.dram.waiting.set (Source.ofPort p) (some q) } }
     (lookup s.prof.windows r = .imageRead b word →
       (s.fillAhead p b = true → exec (.imageRead p) s = .next s) ∧
       (s.fillAhead p b = false →
         (∀ i, s.img.slotOf b = some i → exec (.imageRead p) s =
           .next (goesOn .plain s.img.slots (.read (s.prof.shadowBase / 4 + i.val * 1024 + word) r.len))) ∧
         (s.img.slotOf b = none → (∀ x, s.flash.current = some x → x.job.isErase = false) → exec (.imageRead p) s = .next { s with
           ports := s.ports.set p { s.ports.get p with carry := .flash }
           img := { s.img with waiting := s.img.waiting.erase p }
           flash := { s.flash with portReads := s.flash.portReads ++ [.portRead p (b * 1024 + word) r.len] } }))) ∧
     (lookup s.prof.windows r = .imageWrite b word →
       (s.writeAhead p b = true → exec (.imageWrite p) s = .next s) ∧
       (s.writeAhead p b = false →
         (∀ i t, s.img.slotOf b = some i → s.img.slots.get i = .opened b t → exec (.imageWrite p) s =
           .next (goesOn (.store i) s.img.slots (writeReq (s.prof.shadowBase / 4 + i.val * 1024 + word) r))) ∧
         (∀ i, s.img.slotOf b = some i → (s.img.slots.get i = .queued b ∨ s.img.slots.get i = .burning b) →
           exec (.imageWrite p) s = .next (ended .busy)) ∧
         (s.img.slotOf b = none → refusesBlock s.lock b → exec (.imageWrite p) s = .next (ended .protect)) ∧
         (s.img.slotOf b = none → ¬ refusesBlock s.lock b → (∀ i, s.img.slots.get i ≠ .empty) →
           exec (.imageWrite p) s = .next (ended .full)) ∧
         (∀ i, s.img.slotOf b = none → ¬ refusesBlock s.lock b → s.img.slots.get i = .empty → (∀ j, j < i → s.img.slots.get j ≠ .empty) →
           exec (.imageWrite p) s = .next (goesOn (.fill i 0) (s.img.slots.set i (.opened b 0))
             (.write (s.prof.shadowBase / 4 + i.val * 1024) (List.replicate 16 0xFFFFFFFF#32))))))) ∧
  (∀ (s : State) (p : Port) (b : Nat),
     let other := s.ports.get (otherPort p)
     let fills := ∃ i k, other.carry = .fill i k ∧ (s.img.slots.get i).block = some b
     let stores := ∃ i, other.carry = .store i ∧ (s.img.slots.get i).block = some b
     let writing := ∃ i, other.carry = .store i ∨ ∃ k, other.carry = .fill i k
     (s.fillAhead p b = true ↔ fills) ∧
     (writing → (s.writeAhead p b = true ↔ fills ∨ stores)) ∧
     (¬ writing → s.img.waiting.head? ≠ some (otherPort p) → s.writeAhead p b = false) ∧
     (∀ r rest, ¬ writing → s.img.waiting.head? = some (otherPort p) → other.queue = r :: rest → (s.writeAhead p b = true ↔
       ∃ word, lookup s.prof.windows r = .imageWrite b word ∨ lookup s.prof.windows r = .imageRead b word)))

/-- R83, R125: each of the 64 fill writes of a slot stores sixteen words of FFFFFFFFh and the next waits, then the port's own
write. R82, R84: when that write has been stored it is answered DONE and the idle timer restarts, or, where it includes the
block's last word, the slot is QUEUED at the tail of the burn queue; a partial write whose word is Uncorrectable is refused
FAULT and leaves slot and word. -/
def Obligations.SlotFillThenStore : Prop :=
  ∀ (s : State) (p : Port) (r : Request) (rest : List Request) (i : SlotId) (b word t0 : Nat),
    s.memoryWf = true → s.dram.entryReq = none → lookup s.prof.windows r = .imageWrite b word → s.img.slots.get i = .opened b t0 →
    (∀ k off, k < 64 → Carried s p (.fill i k) r rest →
      s.dram.grant = some (.source (Source.ofPort p) (.write off (List.replicate 16 0xFFFFFFFF#32))) →
      ∃ t, exec .partRequestGrantEnd s = .next t ∧
        t = { s with
          ports := s.ports.set p { s.ports.get p with carry := .fill i (k + 1) }
          dram := { s.dram with grant := none, cells := t.dram.cells, waiting := t.dram.waiting } } ∧
        t.dram.waiting = s.dram.waiting.set (Source.ofPort p) (some (if k = 63 then
            writeReq (s.prof.shadowBase / 4 + i.val * 1024 + word) r
          else .write (s.prof.shadowBase / 4 + i.val * 1024 + 16 * (k + 1)) (List.replicate 16 0xFFFFFFFF#32))) ∧
        (∀ a, off ≤ a → a < off + 16 → readCell dramDefault t.dram.cells a = encodeWord 0xFFFFFFFF#32) ∧
        (∀ a, a < off ∨ off + 16 ≤ a → readCell dramDefault t.dram.cells a = readCell dramDefault s.dram.cells a)) ∧
    (∀ c : Instr, (c = .slotFillComplete ∧ Carried s p (.fill i 64) r rest ∨ c = .portDramGrantEnd ∧ Carried s p (.store i) r rest) →
      ∀ off w en, s.dram.grant = some (.source (Source.ofPort p) (.rmw off w en)) →
      ∃ t, exec c s = .next t ∧ t.ctx = s.ctx ∧ t.flash = s.flash ∧ t.pow = s.pow ∧ t.lock = s.lock ∧
        (∀ a, a ≠ off → readCell dramDefault t.dram.cells a = readCell dramDefault s.dram.cells a) ∧
        ((readCode (readCell dramDefault s.dram.cells off)).bad = true →
          t.ports = answered s p rest (.refused .fault) ∧ t.img = s.img ∧ t.dram.cells = s.dram.cells) ∧
        ((readCode (readCell dramDefault s.dram.cells off)).bad = false →
          t.ports = answered s p rest (.done []) ∧
          readCell dramDefault t.dram.cells off =
            encodeWord (mergeWord (readCode (readCell dramDefault s.dram.cells off)).word w en) ∧
          (word + r.len ≠ 1024 → t.img.slots = s.img.slots.set i (.opened b 0) ∧ t.img.queue = s.img.queue) ∧
          (word + r.len = 1024 → t.img.slots = s.img.slots.set i (.queued b) ∧ t.img.queue = s.img.queue ++ [i]))) ∧
    (∀ off ws, s.dram.grant = some (.source (Source.ofPort p) (.write off ws)) →
      ∀ c : Instr, (c = .slotFillComplete ∧ Carried s p (.fill i 64) r rest ∨ c = .portDramGrantEnd ∧ Carried s p (.store i) r rest) →
      ∃ t, exec c s = .next t ∧
        t = { s with
          ports := answered s p rest (.done [])
          img := { s.img with slots := t.img.slots, queue := t.img.queue }
          dram := { s.dram with grant := none, cells := t.dram.cells } } ∧
        (word + r.len ≠ 1024 → t.img.slots = s.img.slots.set i (.opened b 0) ∧ t.img.queue = s.img.queue) ∧
        (word + r.len = 1024 → t.img.slots = s.img.slots.set i (.queued b) ∧ t.img.queue = s.img.queue ++ [i]) ∧
        (∀ a, off ≤ a → a < off + ws.length → readCell dramDefault t.dram.cells a = encodeWord (wordAt ws (a - off))) ∧
        (∀ a, a < off ∨ off + ws.length ≤ a → readCell dramDefault t.dram.cells a = readCell dramDefault s.dram.cells a))

/-- R85, R93, R94, log 3, log 23: in RUN, with no write of the slot in carry, the idle expiry of an OPEN slot abandons it with
result 8 and checksum 0000h. -/
def Obligations.IdleSlotIsAbandoned : Prop :=
  ∀ (s : State) (i : SlotId) (b x : Nat), s.img.slots.get i = .opened b x → s.su.supply = .running → s.pow.state = .run →
    s.slotInCarry i = false →
    ∃ u t, u = s.pass (s.prof.imageIdle * 1000 - x) ∧ exec (.imageIdleExpiry i) s = .next t ∧ BurnResultGiven u t i b 8 0#16 ∧
      BurnFrame u t ∧ t.img.queue = s.img.queue ∧ t.img.burn = s.img.burn

/-- R86, R87: in RUN with no burn in progress, and no grant of the BURN requester for one that was requeued (R125, log 13), the front slot of
the burn queue starts burning. A block the lock store refuses
ends with PROTECT; block 0 goes to step 2 with the first of its 64 shadow reads, any other to step 3 with its blank check. -/
def Obligations.BurnStartChecksTheLock : Prop :=
  (∀ (s : State) (request : DramReq), s.dram.grant = some (.source .burn request) → exec .burnStart s = .next s) ∧
  ∀ (s : State) (i : SlotId) (b : Nat) (more : List SlotId), s.img.queue = i :: more → s.img.slots.get i = .queued b →
    s.su.supply = .running → s.dram.entryReq = none → s.pow.state = .run → s.img.burn = none →
    (∀ request, s.dram.grant ≠ some (.source .burn request)) →
    let u : State := { s with img := { s.img with slots := s.img.slots.set i (.burning b), queue := more } }
    let burn (held : HeldStep) : Burn := ⟨i, b, held, .idle, false, false, none⟩
    ∃ t, exec .burnStart s = .next t ∧ BurnFrame s t ∧
      (refusesBlock s.lock b → BurnResultGiven u t i b 2 0#16 ∧ t.img.burn = none ∧ t.flash = s.flash) ∧
      (¬ refusesBlock s.lock b → b = 0 → StartsReads u t (burn .s2) (.reading 0 []) (s.prof.shadowBase / 4 + i.val * 1024)) ∧
      (¬ refusesBlock s.lock b → b ≠ 0 → OffersJob u t (burn .s3) (.burnBlank b))

/-- R88, R90, R66, R125: a clean read of a burn's sequence that is not its last is kept and the next waits; an Uncorrectable word
ends the sequence, at any read of it (log 13), and the burn with DRAM-FAULT. The last clean read of a shadow reading gives step 2 its verdict
(PROFILE-INVALID, PROTECT, or on to step 3 with the new lock fields) or step 5 its program set. R96: with the boundary reached outside RUN
the burn pauses with its held step kept (log 26), while reads and fetches run to their end in every power state; the last read of a source fetch puts the
burn's job in the burn list. R97: where PF-DRAIN has stopped the burn, the fetch's end (log 41), clean or not, puts the slot back at the front of the
burn queue with no result. -/
def Obligations.BurnReadsRunToTheirEnd : Prop :=
  ∀ (s : State) (b : Burn) (off : Nat), s.img.burn = some b → s.dram.waiting.get .burn = none → s.dram.entryReq = none →
    s.dram.grant = some (.source .burn (.read off 16)) →
    let rs := readDram s.dram.cells off 16
    let u : State := { s with dram := { s.dram with grant := none } }
    (∀ k ws, b.act = .reading k ws → (∃ x ∈ rs, x.2.bad = true) → ∃ t, exec .burnShadowReadComplete s = .next t ∧
      t.img.burn = none ∧ BurnResultGiven s t b.slot b.block 7 0#16 [.fault] ∧ t.mir.attention.get Cause.fault.ix = .waiting) ∧
    (∀ k ws, b.act = .fetching k ws → (∃ x ∈ rs, x.2.bad = true) → ∃ t, exec .sourceFetchComplete s = .next t ∧
      t.mir.attention.get Cause.fault.ix = .waiting ∧
      (b.aborting = false → t.img.burn = none ∧ BurnResultGiven s t b.slot b.block 7 0#16 [.fault]) ∧
      (b.aborting = true → Requeued s t b ∧ t.stg = s.stg ∧ CausesKept s t [.fault])) ∧
    ((∀ x ∈ rs, ∃ w, x.2 = .clean w) →
      (∀ k ws, b.act = .reading k ws → k < 63 → ∃ t, exec .partRequestGrantEnd s = .next t ∧ BurnFrame u t ∧
        t.img.burn = some { b with act := .reading (k + 1) (ws ++ dataOf rs) } ∧
        t.dram.waiting.get .burn = some (.read (s.prof.shadowBase / 4 + b.slot.val * 1024 + 16 * (k + 1)) 16)) ∧
      (∀ k ws, b.act = .fetching k ws → k < 3 → ∃ t, exec .partRequestGrantEnd s = .next t ∧ BurnFrame u t ∧
        t.img.burn = some { b with act := .fetching (k + 1) (ws ++ dataOf rs) } ∧
        t.dram.waiting.get .burn =
          some (.read (s.prof.shadowBase / 4 + b.slot.val * 1024 + 16 * (4 * b.fetchPage + k + 1)) 16)) ∧
      (∀ ws, b.act = .reading 63 ws → b.held = .s2 → ∃ t, exec .burnShadowReadComplete s = .next t ∧ BurnFrame u t ∧
        (parseProfile ((ws ++ dataOf rs).take 128) = none → BurnResultGiven s t b.slot b.block 3 0#16 ∧ t.img.burn = none) ∧
        (∀ p, parseProfile ((ws ++ dataOf rs).take 128) = some p →
          (oneWay s.lock p.lock = false → BurnResultGiven s t b.slot b.block 2 0#16 ∧ t.img.burn = none) ∧
          (oneWay s.lock p.lock = true →
            JobNext s t { b with held := .s3, newLock := some p.lock } (.burnBlank b.block)))) ∧
      (∀ ws, b.act = .reading 63 ws → b.held = .s5 none → ∃ t, exec .burnShadowReadComplete s = .next t ∧ BurnFrame u t ∧
        (∀ page more, programSet (ws ++ dataOf rs) = page :: more → ReadsNext s t { b with held := .s5 (some (page :: more)) }
          (.fetching 0 []) (s.prof.shadowBase / 4 + b.slot.val * 1024 + 64 * page)) ∧
        (programSet (ws ++ dataOf rs) = [] → ReadsNext s t { b with held := .s6 0 0#16 false }
          (.fetching 0 []) (s.prof.shadowBase / 4 + b.slot.val * 1024))) ∧
      (∀ ws, b.act = .fetching 3 ws → ∃ t, exec .sourceFetchComplete s = .next t ∧
        (b.aborting = true → Requeued s t b ∧ NothingReported s t) ∧
        (∀ page more, b.aborting = false → b.held = .s5 (some (page :: more)) →
          OffersJob s t b (.burnProgram b.block page (ws ++ dataOf rs)) ∧ NothingReported s t ∧ BurnFrame u t) ∧
        (∀ page sum bad, b.aborting = false → b.held = .s6 page sum bad →
          OffersJob s t b (.burnVerify b.block page (ws ++ dataOf rs) sum) ∧ NothingReported s t ∧ BurnFrame u t)))

/-- R89 to R92, R96, R97, R100, R103: the jobs of a burn; a burn that goes on does so in RUN, and pauses with its held step kept in any
other state (log 26). Blank at step 3 or after the erase goes to step 5; not blank at step 3 is
erased, or PROTECT with the erase forbid set; not blank after the erase is ERASE-FAIL. A program that ends goes to the next page,
after the last to step 6; a program or an erase that times out, the time up to its limit having passed (log 3), ends TIMEOUT; either may leave words that the
device left at another value (log 10). A verify continues the checksum and remembers a
mismatch; after page 15 a mismatch ends VERIFY-FAIL and else the burn is DONE, for block 0 with the new profile's lock fields in
the lock store and the profile state pending. Where PF-DRAIN has stopped the burn, a PROGRAM that ends, with its page programmed, or times
out (log 40) puts the slot back at the front of the burn queue, with no result. -/
def Obligations.BurnJobsDecideTheNextStep : Prop :=
  (∀ (s : State) (b : Burn) (page : Nat) (ws : List Word) (r : Running), s.img.burn = some b → b.aborting = true → s.memoryWf = true →
    JobAtDevice s (.burnProgram b.block page ws) → s.flash.current = some r → r.abortReq = false →
    (∀ ds : List Defect, ws.length = 64 → ds.all (Defect.wf 64) = true → ∃ t, exec (.programEnd ds) s = .next t ∧
      Programmed s t b.block page ws ds ∧ t.flash.current = none ∧ Requeued s t b ∧ NothingReported s t) ∧
    ∃ u t, u = s.pass (2 - r.time) ∧ exec .flashTimeout s = .next t ∧ t.flash.current = none ∧ Requeued u t b ∧ NothingReported u t) ∧
  ∀ (s : State) (b : Burn), s.img.burn = some b → b.aborting = false → s.memoryWf = true →
    let base := s.prof.shadowBase / 4 + b.slot.val * 1024
    let blank := ∀ i, i < 1024 → readCell erasedWord s.flash.cells (b.block * 1024 + i) = erasedWord
    (JobAtDevice s (.burnBlank b.block) → ∃ t, exec .blankCheckEnd s = .next t ∧ BurnFrame s t ∧ t.flash.current = none ∧
      (blank → ReadsNext s t { b with held := .s5 none } (.reading 0 []) base) ∧
      (¬ blank → b.held = .s4Blank → BurnResultGiven s t b.slot b.block 4 0#16 ∧ t.img.burn = none) ∧
      (¬ blank → b.held = .s3 → s.lock.imageErase = true → BurnResultGiven s t b.slot b.block 2 0#16 ∧ t.img.burn = none) ∧
      (¬ blank → b.held = .s3 → s.lock.imageErase = false → JobNext s t { b with held := .s4Erase } (.burnErase b.block))) ∧
    (∀ r, JobAtDevice s (.burnErase b.block) → s.flash.current = some r → r.abortReq = false →
      ∀ ds : List Defect, ds.all (Defect.wf 1024) = true →
      ∃ t, exec (.eraseEnd ds) s = .next t ∧ ErasedBlock s t b.block ds ∧ JobNext s t { b with held := .s4Blank } (.burnBlank b.block)) ∧
    (∀ page more ws, JobAtDevice s (.burnProgram b.block page ws) → ws.length = 64 → b.held = .s5 (some (page :: more)) →
      ∀ ds : List Defect, ds.all (Defect.wf 64) = true →
      ∃ t, exec (.programEnd ds) s = .next t ∧ Programmed s t b.block page ws ds ∧
      (∀ next more', more = next :: more' →
        ReadsNext s t { b with held := .s5 (some (next :: more')) } (.fetching 0 []) (base + 64 * next)) ∧
      (more = [] → ReadsNext s t { b with held := .s6 0 0#16 false } (.fetching 0 []) base)) ∧
    (∀ r j, JobAtDevice s j → (j = .burnErase b.block ∨ ∃ page ws, j = .burnProgram b.block page ws) → s.flash.current = some r →
      r.abortReq = false → ∃ u t lim, j.limit = some lim ∧ u = s.pass (lim - r.time) ∧ exec .flashTimeout s = .next t ∧
        BurnResultGiven u t b.slot b.block 6 0#16 ∧ t.img.burn = none ∧ t.flash.current = none) ∧
    (∀ page ws start bad, JobAtDevice s (.burnVerify b.block page ws start) → b.held = .s6 page start bad →
      let read := flashPage s.flash.cells b.block page
      let sum := checksum start (bytesOf read)
      let bad' := bad || !decide (read = ws)
      ∃ t, exec .verifyEnd s = .next t ∧ t.flash.cells = s.flash.cells ∧ t.flash.current = none ∧
      (page < 15 → ReadsNext s t { b with held := .s6 (page + 1) sum bad' } (.fetching 0 []) (base + 64 * (page + 1)) ∧
        BurnFrame s t) ∧
      (15 ≤ page → bad' = true → BurnResultGiven s t b.slot b.block 5 sum ∧ t.img.burn = none ∧ BurnFrame s t) ∧
      (15 ≤ page → bad' = false → b.block ≠ 0 → BurnResultGiven s t b.slot b.block 1 sum ∧ t.img.burn = none ∧ BurnFrame s t) ∧
      (15 ≤ page → bad' = false → b.block = 0 → BurnResultGiven s t b.slot b.block 1 sum ∧ t.img.burn = none ∧
        (∀ l, b.newLock = some l → t.lock = l) ∧ t.su.profState = .pending ∧ t.prof = s.prof))

/-! ## DRAM Controller (R123 to R150) -/

/-- R129, R130, R131: on a free DRAM (a self-refresh entry that waits for the ring write queue leaves it free: R24, log 15) with no urgent refresh due the request that the policy favours is granted: under SP the
highest waiting; under WSP the highest due one, else the highest waiting. Under WSP its passover count becomes 0 and every other
waiting requester's rises by 1, up to its threshold of 16 minus its weight; under SP no count changes. Nothing else changes but
the open rows and, log 10, words that flips in the device name. With nothing to grant nothing changes. R124, R127: each access of
a grant, one or across a row end two, uses the entry that holds its bank, else the lowest closed one, else the one used longest
ago; that entry holds its row with rank 1 and the entries used more recently move down by one. A request outside the geometry stops
with a fault and flips outside the device are refused by name (R123, log 24). -/
def Obligations.ArbiterGrantsByPolicyAndLooksUpRows : Prop :=
  (∀ (s : State) (us : List Upset), DramFree s → s.dram.owed < s.prof.urgentThreshold → us.all Upset.wf = true →
     (∀ (r : Source) (q : DramReq), s.dram.waiting.get r = some q → favours s r → inGeometry s.prof q.span.1 q.span.2 →
       ∃ t, exec (.arbiterChoice us) s = .next t ∧ CellsBut s t us ∧
         t = { s with dram := { s.dram with
           grant := some (.source r q), waiting := s.dram.waiting.set r none
           passover := t.dram.passover, rows := t.dram.rows, cells := t.dram.cells } } ∧
         (s.prof.policy = .sp → t.dram.passover = s.dram.passover) ∧
         (s.prof.policy = .wsp → t.dram.passover.get r = 0 ∧
           (∀ j, j ≠ r → s.dram.waiting.get j ≠ none →
             t.dram.passover.get j = min (16 - s.prof.weights.get j) (s.dram.passover.get j + 1)) ∧
           (∀ j, j ≠ r → s.dram.waiting.get j = none → t.dram.passover.get j = s.dram.passover.get j))) ∧
     ((∀ r, s.dram.waiting.get r = none) → (0 < s.dram.owed ∨ s.dram.correction = [] ∧ s.dram.patrol = 0) →
       exec (.arbiterChoice us) s = .next s) ∧
     (∀ (r : Source) (q : DramReq), s.dram.waiting.get r = some q → favours s r → ¬ inGeometry s.prof q.span.1 q.span.2 →
       exec (.arbiterChoice us) s = .fault .outsideGeometry)) ∧
  (∀ (s : State) (us : List Upset), us.all Upset.wf = false → exec (.arbiterChoice us) s = .refused .illFormed) ∧
  (∀ (s t : State) (us : List Upset) (g : Grant), rowsWf s.dram.rows = true → s.dram.grant = none →
     exec (.arbiterChoice us) s = .next t → t.dram.grant = some g → RowsAfter s.prof s.dram.rows t.dram.rows g.span.1 g.span.2)

/-- R129, R133, R134, R144 to R146: on a free DRAM (log 15) with none of the six waiting and nothing owed SCRUB is granted the write-back at the front of
the correction queue, ahead of a patrol read of 8 words at the scrub pointer. A write-back stores a Corrected word with fresh
check bits and writes nothing for another word, and the offset leaves the queue. A patrol read changes no word, offers each Corrected word for a write-back and counts one
patrol read less, and the pointer advances by 8, at the end of the geometry to 0. -/
def Obligations.ScrubWritesBackThenPatrols : Prop :=
  (∀ s : State, DramFree s → s.dram.owed = 0 → 1 ≤ s.prof.urgentThreshold → (∀ r, s.dram.waiting.get r = none) →
    (∀ off more, s.dram.correction = off :: more → inGeometry s.prof off 1 →
      ∃ t, exec (.arbiterChoice []) s = .next t ∧
        t = { s with dram := { s.dram with grant := some (.writeBack off), rows := t.dram.rows } }) ∧
    (s.dram.correction = [] → 0 < s.dram.patrol → inGeometry s.prof s.dram.scrub 8 →
      ∃ t, exec (.arbiterChoice []) s = .next t ∧
        t = { s with dram := { s.dram with grant := some (.patrol s.dram.scrub), rows := t.dram.rows } })) ∧
  (∀ (s : State) (off : Nat) (more : List Nat), s.dram.grant = some (.writeBack off) → s.dram.correction = off :: more →
    s.dram.entryReq = none → s.memoryWf = true →
    let word := readCode (readCell dramDefault s.dram.cells off)
    (word.bad = false → ∃ t, exec .writeBackEnd s = .next t ∧
      t = { s with dram := { s.dram with grant := none, correction := more, cells := t.dram.cells } } ∧
      (∀ a, a ≠ off → readCell dramDefault t.dram.cells a = readCell dramDefault s.dram.cells a) ∧
      (∀ w, word = .corrected w → readCell dramDefault t.dram.cells off = encodeWord w) ∧
      (∀ w, word = .clean w → t.dram.cells = s.dram.cells)) ∧
    (∀ syn, word = .uncorrectable syn → ∃ t, exec .writeBackEnd s = .next t ∧
      t = { s with
        stg := { s.stg with outbox := t.stg.outbox, lost := t.stg.lost }
        dram := { s.dram with grant := none, correction := more, uncorrectable := min 65535 (s.dram.uncorrectable + 1) }
        mir := { s.mir with dirty := true, attention := t.mir.attention } } ∧
      t.mir.attention.get Cause.fault.ix = .waiting ∧
      Offered s t (partRecord 0xF2#8 false s.stamp [BitVec.ofNat 32 (off * 4), 7#32, BitVec.ofNat 32 syn.toNat]) [.fault])) ∧
  (∀ (s : State) (off : Nat), s.dram.grant = some (.patrol off) → s.dram.entryReq = none →
    let rs := readDram s.dram.cells off 8
    let counted (t : State) : State := { s with
      stg := { s.stg with outbox := t.stg.outbox, lost := t.stg.lost }
      dram := { s.dram with
        grant := none, patrol := s.dram.patrol - 1
        scrub := if s.prof.banks * s.prof.rows * s.prof.cols ≤ s.dram.scrub + 8 then 0 else s.dram.scrub + 8
        corrected := t.dram.corrected, correction := t.dram.correction, uncorrectable := t.dram.uncorrectable }
      mir := { s.mir with dirty := t.mir.dirty, attention := t.mir.attention } }
    ∃ t, exec .patrolReadEnd s = .next t ∧ t = counted t ∧
      (s.dram.corrected ≤ 65535 → t.dram.corrected = min 65535 (s.dram.corrected + correctedCount rs)) ∧
      (s.dram.uncorrectable ≤ 65535 → t.dram.uncorrectable = min 65535 (s.dram.uncorrectable + badCount rs)) ∧
      t.dram.correction = correctionsAfter s.dram.correction rs ∧
      ((∀ x ∈ rs, x.2.bad = false) → t.stg = s.stg ∧ t.mir.attention = s.mir.attention) ∧
      (∀ at_ syn, firstBad rs = some (at_, syn) → t.mir.attention.get Cause.fault.ix = .waiting ∧ t.mir.dirty = true ∧
        Offered s t (partRecord 0xF2#8 false s.stamp [BitVec.ofNat 32 (at_ * 4), 7#32, BitVec.ofNat 32 syn.toNat]) [.fault]))

/-- R132: a word read as it was stored is Clean; with any one of its 39 bits flipped it is Corrected to the word stored; with any
two flipped it is Uncorrectable. The check bits of an all-zero word are zero. -/
def Obligations.EccCorrectsOneFlipAndReportsTwo : Prop :=
  checkBits 0#32 = 0#7 ∧
  ∀ w : Word, readCode (encodeWord w) = .clean w ∧
    (∀ i, i < 39 → readCode (flipped (encodeWord w) i) = .corrected w) ∧
    (∀ i j, i < 39 → j < 39 → i ≠ j → (readCode (flipped (flipped (encodeWord w) i) j)).bad = true)

/-- R128, R141 to R145: an expiry raises the owed count by 1 and at 8 is lost, which is counted, raises FAULT and is reported; the
timer reloads with the profile period, halved while HOT. On a free DRAM (log 15) an urgent refresh is due from the threshold, a trickle refresh below it
with none of the six waiting; either closes every row. Each refresh that ends lowers the owed count by 1; an urgent sequence goes
on until it is 0; a trickle refresh hands out one patrol read, two while HOT, up to 2, and where an urgent refresh fell due while it ran,
every row closes and the sequence begins as it ends (log 39). -/
def Obligations.RefreshesAreOwedAndPaid : Prop :=
  (∀ (s : State) (level : Bool), exec (.hotChange level) s = .next { s with pow := { s.pow with hot := level } }) ∧
  (∀ s : State, s.dram.timerOn = true →
    let period := if s.pow.hot = true then s.prof.refreshPeriod / 2 else s.prof.refreshPeriod
    (s.dram.owed < 8 →
      exec .refreshTimerExpiry s = .next { s with dram := { s.dram with owed := s.dram.owed + 1, period := period } }) ∧
    (8 ≤ s.dram.owed → ∃ t, exec .refreshTimerExpiry s = .next t ∧
      t = { s with
        stg := { s.stg with outbox := t.stg.outbox, lost := t.stg.lost }
        dram := { s.dram with lostRefresh := min 65535 (s.dram.lostRefresh + 1), period := period }
        mir := { s.mir with dirty := true, attention := t.mir.attention } } ∧
      t.mir.attention.get Cause.fault.ix = .waiting ∧
      ((∀ r ∈ s.stg.outbox, r.kind ≠ 0xF8#8) → Offered s t (partRecord 0xF8#8 false s.stamp [1#32]) [.fault]) ∧
      (∀ before r after, s.stg.outbox = before ++ r :: after → r.kind = 0xF8#8 → (∀ x ∈ before, x.kind ≠ 0xF8#8) →
        t.stg.outbox = before ++ { r with payload := [BitVec.ofNat 32 (min 65535 ((wordAt r.payload 0).toNat + 1))] } :: after ∧
        t.stg.lost = s.stg.lost ∧ CausesKept s t [.fault]))) ∧
  (∀ s : State, DramFree s →
    (s.prof.urgentThreshold ≤ s.dram.owed → ∃ t, exec .urgentRefresh s = .next t ∧ AllClosed s.prof t.dram.rows ∧
      t = { s with dram := { s.dram with refresh := .urgent, rows := t.dram.rows } }) ∧
    (0 < s.dram.owed → s.dram.owed < s.prof.urgentThreshold → (∀ r, s.dram.waiting.get r = none) →
      ∃ t, exec .trickleRefresh s = .next t ∧ AllClosed s.prof t.dram.rows ∧
        t = { s with dram := { s.dram with refresh := .trickle, rows := t.dram.rows } }) ∧
    (s.dram.owed = 0 ∨ s.prof.urgentThreshold ≤ s.dram.owed ∨ (∃ r, s.dram.waiting.get r ≠ none) →
      exec .trickleRefresh s = .next s)) ∧
  (∀ s : State, s.dram.entryReq = none → s.dram.grant = none →
    (s.dram.refresh = .urgent → exec .refreshEnd s = .next { s with dram := { s.dram with
      owed := s.dram.owed - 1, refresh := if s.dram.owed ≤ 1 then .none else .urgent } }) ∧
    (s.dram.refresh = .trickle →
      let u : State := { s with dram := { s.dram with
        owed := s.dram.owed - 1, refresh := .none, patrol := min 2 (s.dram.patrol + if s.pow.hot = true then 2 else 1) } }
      (s.dram.owed < s.prof.urgentThreshold → exec .refreshEnd s = .next u) ∧
      (s.prof.urgentThreshold ≤ s.dram.owed → ∃ t, exec .refreshEnd s = .next t ∧ AllClosed s.prof t.dram.rows ∧
        t = { u with dram := { u.dram with refresh := .urgent, rows := t.dram.rows } })))

/-! ## Power states (R151 to R165) -/

/-- R152, R153, R157, R159, R161: LPREQ asserted takes RUN to SETTLING; released it takes SETTLING and ROUSED to RUN, with a DOZE
record (2, 4) where an entry is pending; in DOZE its release is wake cause 4, and between the commit point and DOZE it is held
(log 15). In any other state only its level changes. A payload write of SVP in carry at the entry to SETTLING stays taken (log 37). -/
def Obligations.LpreqSettlesAndReturnsToRun : Prop :=
  ∀ s : State,
    (s.pow.lpreq = false →
      let u : State := { s with pow := { s.pow with lpreq := true } }
      (s.pow.state = .run → ∃ t, exec .lpreqAsserted s = .next t ∧ InSettling u t) ∧
      (s.pow.state ≠ .run → exec .lpreqAsserted s = .next u)) ∧
    (s.pow.lpreq = true →
      let u : State := { s with pow := { s.pow with lpreq := false } }
      (s.pow.state = .settling ∨ s.pow.state = .roused →
        (s.dram.entryReq = some .doze →
          exec .lpreqReleased s = .next { u with pow := { u.pow with heldEvents := s.pow.heldEvents ++ [.lpreqReleased] } }) ∧
        (s.dram.entryReq ≠ some .doze → s.pow.entryPending = false → ∃ t, exec .lpreqReleased s = .next t ∧ InRun u t) ∧
        (s.dram.entryReq ≠ some .doze → s.pow.entryPending = true →
          ∃ v t, Dozed { u with pow := { u.pow with entryPending := false } } v 2 4 ∧ exec .lpreqReleased s = .next t ∧ InRun v t)) ∧
      (s.pow.state = .doze → exec .lpreqReleased s = .next { u with
        pow := { u.pow with wakeCause := some (s.pow.wakeCause.getD 4) }
        dram := { s.dram with exitReq := true } }) ∧
      (s.pow.state ≠ .settling → s.pow.state ≠ .roused → s.pow.state ≠ .doze → exec .lpreqReleased s = .next u))

/-- R152, R157, R159, R162 to R164: PFW asserted takes RUN, SETTLING and ROUSED to PF-DRAIN, after a DOZE record (2, 5) where an
entry is pending; between the commit point and DOZE it is held (R156, log 15); in DOZE it is wake cause 5; elsewhere only its level changes. Released in PF-DRAIN it leads to RUN or by LPREQ to
SETTLING with the scheduler at the start of a round; in PF-HALT, or during its entry, it asks for the exit. The drain's end, which
waits for a port read dispatched before it (R76, R119; log 33), asks for self-refresh entry. A payload write in carry at the entry to PF-DRAIN stays taken (log 37), and a waiting
BURN request of a burn that goes back to its queue at once is withdrawn (log 41). -/
def Obligations.PfwDrainsHaltsAndReturns : Prop :=
  ∀ s : State,
    (s.pow.pfw = false →
      let u : State := { s with pow := { s.pow with pfw := true } }
      (s.pow.state = .run ∨ s.pow.state = .settling ∨ s.pow.state = .roused → s.dram.entryReq = none →
        (s.pow.entryPending = false → ∃ t, exec .pfwAsserted s = .next t ∧ InDrain u t) ∧
        (s.pow.entryPending = true →
          ∃ v t, Dozed { u with pow := { u.pow with entryPending := false } } v 2 5 ∧ exec .pfwAsserted s = .next t ∧ InDrain v t)) ∧
      (s.pow.state = .run ∨ s.pow.state = .settling ∨ s.pow.state = .roused → s.dram.entryReq = some .doze →
        exec .pfwAsserted s = .next { u with pow := { u.pow with heldEvents := s.pow.heldEvents ++ [.pfwAsserted] } }) ∧
      (s.pow.state = .doze → exec .pfwAsserted s = .next { u with
        pow := { u.pow with wakeCause := some (s.pow.wakeCause.getD 5) }
        dram := { s.dram with exitReq := true } }) ∧
      (s.pow.state = .starting ∨ s.pow.state = .pfDrain ∨ s.pow.state = .pfHalt → exec .pfwAsserted s = .next u)) ∧
    (s.pow.pfw = true →
      let u : State := { s with pow := { s.pow with pfw := false } }
      let round : State := { u with com := { s.com with sched := startOfRound s.prof } }
      (s.pow.state = .pfDrain → s.dram.entryReq = none → s.pow.lpreq = false → ∃ t, exec .pfwReleased s = .next t ∧ InRun round t) ∧
      (s.pow.state = .pfDrain → s.dram.entryReq = none → s.pow.lpreq = true →
        ∃ t, exec .pfwReleased s = .next t ∧ InSettling round t) ∧
      (s.pow.state = .pfDrain → s.dram.entryReq = some .halt →
        exec .pfwReleased s = .next { u with pow := { u.pow with heldExit := true } }) ∧
      (s.pow.state = .pfHalt → exec .pfwReleased s = .next { u with dram := { s.dram with exitReq := true } }) ∧
      (s.pow.state ≠ .pfDrain → s.pow.state ≠ .pfHalt → exec .pfwReleased s = .next u)) ∧
    (Awake s →
      (Drained s → ∃ t, exec .drainEnd s = .next t ∧ EntryAsked s t .halt) ∧ (¬ Drained s → exec .drainEnd s = .next s))

/-- R154 to R156, R147, R163, R165: once the settled conditions hold a DOZE record (1, 0) announces the entry; once they hold again
with the ring write queue empty (R24, R158), self-refresh entry is asked for; the end of a grant in progress then does what it does with no entry asked for, and besides the rows close and the
sequence of the refreshes owed begins (R140); each refresh of that sequence lowers the owed count to
0; then, with the ring write queue still or again empty (R24; log 15), the DRAM sleeps and the power state is DOZE, with coarse mode, the wake timer loaded and the held events taken one after another as events of DOZE, contact edges among them, the first that is a wake cause its
wake cause, or after a drain PF-HALT, with the exit
asked for where PFW was released meanwhile. The relapse timer runs up to its interval (log 3). -/
def Obligations.SettledPartGoesToSleep : Prop :=
  ∀ s : State,
    (Awake s →
      (Settled s → s.pow.entryPending = false → ∃ t, exec .dozeAnnouncement s = .next t ∧
        Dozed { s with pow := { s.pow with entryPending := true } } t 1 0) ∧
      (Settled s → s.pow.entryPending = true → s.stg.queue = [] → ∃ t, exec .dozeCommitPoint s = .next t ∧ EntryAsked s t .doze) ∧
      (s.stg.queue ≠ [] → exec .dozeCommitPoint s = .next s) ∧
      (¬ Settled s → exec .dozeAnnouncement s = .next s ∧ exec .dozeCommitPoint s = .next s) ∧
      (s.pow.relapse ≤ s.prof.relapseInterval → ∃ t, t = s.pass (s.prof.relapseInterval - s.pow.relapse) ∧
        exec .relapseTimerExpiry s = .next t ∧ t.pow.relapse = s.prof.relapseInterval)) ∧
    (s.dram.refresh = .entry → exec .refreshEnd s = .next { s with dram := { s.dram with
      owed := s.dram.owed - 1, refresh := if s.dram.owed ≤ 1 then .none else .entry } }) ∧
    (∀ (c : Instr) (before : State), c ∈ grantEnds → s.dram.entryReq ≠ none → s.stg.queue = [] → s.dram.grant ≠ none → s.dram.refresh = .none →
      exec c { s with dram := { s.dram with entryReq := none } } = .next before → before.dram.grant = none →
      ∃ t, exec c s = .next t ∧ AllClosed s.prof t.dram.rows ∧
        t = { before with dram := { before.dram with
          entryReq := s.dram.entryReq, rows := t.dram.rows, refresh := if 0 < s.dram.owed then .entry else .none } }) ∧
    (s.stg.queue ≠ [] → exec .selfRefreshEntered s = .next s) ∧
    (s.stg.queue = [] → s.dram.grant = none → s.dram.refresh = .none ∨ s.dram.refresh = .entry →
      let sleep (cause : Option Nat) (rows : Four RowEntry) : State := { s with
        pow := { s.pow with
          state := .doze, coarse := true, entryPending := false, heldEvents := [], wakeCause := cause
          wakeTimer := if s.prof.wakeInterval = 0 then none else some 0 }
        dram := { Asleep s rows with exitReq := s.dram.exitReq || cause.isSome }
        mir := { s.mir with dirty := true } }
      (s.dram.entryReq = some .doze → s.pow.heldEvents = [] → ∃ t, exec .selfRefreshEntered s = .next t ∧
        AllClosed s.prof t.dram.rows ∧ t = sleep none t.dram.rows) ∧
      (∀ e code, s.dram.entryReq = some .doze → s.pow.heldEvents = [e] →
        heldCause e code → ∃ t, exec .selfRefreshEntered s = .next t ∧ AllClosed s.prof t.dram.rows ∧ t = sleep (some code) t.dram.rows) ∧
      (s.dram.entryReq = some .doze → ∃ rows t, exec .selfRefreshEntered s = .next t ∧ AllClosed s.prof rows ∧
        HeldTaken s.pow.heldEvents (sleep none rows) t) ∧
      (s.dram.entryReq = some .halt → ∃ t, exec .selfRefreshEntered s = .next t ∧ AllClosed s.prof t.dram.rows ∧
        t = { s with
          pow := { s.pow with state := .pfHalt, coarse := true, heldExit := false }
          dram := { Asleep s t.dram.rows with exitReq := s.pow.heldExit }
          mir := { s.mir with dirty := true } }))

/-- R158, R159, R164, R148: the wake timer's expiry is wake cause 3. An exit that is asked for waits for 1 ms of residency, which
passes (log 3); then the DRAM is usable, coarse mode ends, and from DOZE a DOZE record (2, wake cause) is offered (log 14) and PFW
leads to PF-DRAIN, else LPREQ to ROUSED, else RUN; from PF-HALT, without a record, PFW leads to PF-DRAIN, else LPREQ to SETTLING,
else RUN, with the scheduler at the start of a round. -/
def Obligations.SleepEndsByTheLevels : Prop :=
  ∀ s : State,
    (∀ x, s.pow.state = .doze → s.pow.wakeTimer = some x → ∃ u, u = s.pass (s.prof.wakeInterval * 1000 - x) ∧
      exec .wakeTimerExpiry s = .next { u with
        pow := { u.pow with wakeCause := some (s.pow.wakeCause.getD 3) }
        dram := { u.dram with exitReq := true } }) ∧
    (s.su.supply = .running → s.dram.mode = .selfRefresh →
      (s.dram.exitReq = false → exec .selfRefreshExit s = .next s) ∧
      (s.dram.exitReq = true →
        let u := s.pass (1 - s.dram.residency)
        let v : State := { u with
          dram := Woken u
          pow := { u.pow with coarse := false, wakeTimer := none, wakeCause := none } }
        let w : State := { u with
          dram := Woken u
          pow := { u.pow with coarse := false } }
        (s.pow.state = .doze → ∃ x t, Dozed v x 2 (s.pow.wakeCause.getD 0) ∧ exec .selfRefreshExit s = .next t ∧
          (s.pow.pfw = true → InDrain x t) ∧
          (s.pow.pfw = false → s.pow.lpreq = true → InRoused x t) ∧
          (s.pow.pfw = false → s.pow.lpreq = false → InRun x t)) ∧
        (s.pow.state = .pfHalt → ∃ t, exec .selfRefreshExit s = .next t ∧
          (s.pow.pfw = true → InDrain w t) ∧
          (s.pow.pfw = false → s.pow.lpreq = true → InSettling { w with com := { w.com with sched := startOfRound s.prof } } t) ∧
          (s.pow.pfw = false → s.pow.lpreq = false → InRun { w with com := { w.com with sched := startOfRound s.prof } } t))))

/-! ## Contacts, quiet timer, mirror (R166 to R177) -/

/-- R166, R167, R159: an edge on an input that is not OFF, with no debounce time running and a level that differs from the tracked
one, sets the tracked level and starts the debounce time; one in the edge mode's direction fills or merges into the capture slot,
and with wake-enable in DOZE it is wake cause 2. Any other edge changes the pin alone. When the debounce time ends, a level that
differs is such an edge (log 3). Between the commit point and DOZE an edge is held (R156, log 15), that of a
debounce time's end too, but one that comes while its input's
debounce time runs is ignored. R35, R168: outside DOZE and STARTING, with room in the outbox, the lowest held capture becomes a
CONTACT record with input, level, count, first and last time with their COARSE marks, and its slot is empty; a full outbox leaves
it held. -/
def Obligations.ContactEdgesCapturedAndConsumed : Prop :=
  (∀ (s : State) (i : ClassId) (level : Bool), s.su.supply ≠ .off → s.dram.entryReq ≠ some .doze →
     (s.con.pin.get i = level → exec (.contactEdge i level) s = .next s) ∧
     (s.con.pin.get i ≠ level →
       let u : State := { s with con := { s.con with pin := s.con.pin.set i level } }
       ∃ t, exec (.contactEdge i level) s = .next t ∧ EdgeTaken u t i level) ∧
     (∀ x, s.con.debounce.get i = some x → s.con.pin.get i = level →
       let v := s.pass ((s.prof.contacts.get i).debounce - x)
       let u : State := { v with con := { v.con with debounce := v.con.debounce.set i none } }
       ∃ t, exec (.debounceEnd i) s = .next t ∧ EdgeTaken u t i level)) ∧
  (∀ (s : State) (i : ClassId) (level : Bool) (x : Nat), s.dram.entryReq = some .doze → s.con.debounce.get i = some x →
     s.con.pin.get i = level →
     let v := s.pass ((s.prof.contacts.get i).debounce - x)
     let u : State := { v with con := { v.con with debounce := v.con.debounce.set i none } }
     (s.con.tracked.get i = level → exec (.debounceEnd i) s = .next u) ∧
     (s.con.tracked.get i ≠ level → exec (.debounceEnd i) s =
       .next { u with pow := { u.pow with heldEvents := s.pow.heldEvents ++ [.contact i level] } })) ∧
  (∀ (s : State) (i : ClassId) (level : Bool), s.su.supply ≠ .off → s.dram.entryReq = some .doze → s.con.pin.get i ≠ level →
     let u : State := { s with con := { s.con with pin := s.con.pin.set i level } }
     (s.con.debounce.get i = none →
       exec (.contactEdge i level) s = .next { u with pow := { s.pow with heldEvents := s.pow.heldEvents ++ [.contact i level] } }) ∧
     (s.con.debounce.get i ≠ none → exec (.contactEdge i level) s = .next u)) ∧
  (∀ (s : State) (i : ClassId) (x : Capture),
     s.con.slots.get i = some x → (∀ j, j < i → s.con.slots.get j = none) →
     s.su.supply = .running → s.pow.state ≠ .doze → s.pow.state ≠ .starting →
     (8 ≤ s.stg.outbox.length → exec .captureConsumed s = .next s) ∧
     let payload : List Word := [BitVec.ofNat 32 i.val, if x.level then 1#32 else 0#32, BitVec.ofNat 32 x.count,
       x.first.setWidth 32, BitVec.ofNat 32 (x.first.toNat / 2 ^ 32 + if x.firstCoarse then 65536 else 0),
       x.last.setWidth 32, BitVec.ofNat 32 (x.last.toNat / 2 ^ 32 + if x.lastCoarse then 65536 else 0)]
     (s.stg.outbox.length < 8 → exec .captureConsumed s = .next { s with
       con := { s.con with slots := s.con.slots.set i none }
       stg := { s.stg with outbox := s.stg.outbox ++ [partRecord 0xF1#8 false s.stamp payload] }
       mir := { s.mir with dirty := true } }))

/-- R171, R172, R176: in RUN the expiry raises the consecutive count, offers a QUIET record with it, starts the SVRST pulse, abandons
SVP's open records with cause 3 in class order, raises QUIET and reloads the interval; the pulse ends after its 10 ms (log 3). A
payload write of SVP in carry at the expiry stays taken (log 37): it finds its context empty and is refused ORDER, in the pulse too. -/
def Obligations.QuietExpiryResetsTheSupervisor : Prop :=
  (∀ (s : State) (x : Nat), s.quiet.remaining = some x → s.su.supply = .running → s.pow.state = .run →
    ∃ u t, u = s.pass x ∧ exec .quietExpiry s = .next t ∧ t.svrst = true ∧ t.attn = true ∧
      t.mir.attention.get Cause.quiet.ix = .waiting ∧
      t = { u with
        ports := t.ports
        ctx := { u.ctx with svp := Four.const none }
        stg := { u.stg with rings := t.stg.rings, outbox := t.stg.outbox, lost := t.stg.lost }
        quiet := { remaining := some (s.prof.quietInterval * 1000), count := min 65535 (s.quiet.count + 1), pulse := some 0 }
        mir := { u.mir with dirty := true, attention := t.mir.attention } } ∧
      Latched u t [.svp] ∧ Released u t [.svp] ∧
      OfferedAll u t (partRecord 0xF3#8 false u.stamp [BitVec.ofNat 32 (min 65535 (s.quiet.count + 1))] :: abandonments u .svp 3) [.quiet]) ∧
  (∀ (s : State) (x : Nat), s.quiet.pulse = some x → ∃ u, u = s.pass (10 - x) ∧ exec .svrstPulseEnd s =
      .next { u with quiet := { u.quiet with pulse := none } } ∧ ({ u with quiet := { u.quiet with pulse := none } } : State).svrst = false) ∧
  (∀ (s : State) (p : Port) (r : Request) (rest : List Request) (c : ClassId) (k : Nat),
    Carried s p .taken r rest → s.context p c = none →
    (lookup s.prof.windows r = .payload c k → exec (.payloadWord p) s = .next (refusedAtOnce s p rest .order)) ∧
    (∀ w ws, lookup s.prof.windows r = .burst c k → 1 ≤ k → k ≤ 12 → r.data = w :: ws →
      exec (.journalBurst p) s = .next (refusedAtOnce s p rest .order)))

/-- R174, R176, R196: outside STARTING a write starts while dirty is set, none is in progress and the DRAM is usable, a request for
self-refresh entry or not: dirty clears, the generation
rises and wraps, every waiting cause is recorded at it, and the copy's word 0 waits at the MIRROR requester. The six requests are
words 0, 1 to 15, 16 to 31, 32 to 47, 48 to 61 and 63; at the end of the last the generation is the last completed one. Words 0
and 63 of a copy are its generation, words 3 and 4 the time base, and every other word but 62, the acknowledge word, shows what R196 gives it; a word
under a mark that says it holds nothing is 0 (log 36). -/
def Obligations.MirrorWriteCarriesOnePicture : Prop :=
  (∀ s : State, s.su.supply = .running →
    (s.pow.state = .run ∨ s.pow.state = .settling ∨ s.pow.state = .roused ∨ s.pow.state = .pfDrain) →
    s.dram.mode = .usable → s.mir.dirty = true → s.mir.write = none →
    ∃ t w, exec .mirrorWriteStart s = .next t ∧
      t = { s with
        mir := { s.mir with
          dirty := false, gen := s.mir.gen + 1#32, write := some ⟨w, 0⟩, attention := t.mir.attention }
        dram := { s.dram with
          waiting := s.dram.waiting.set .mirror (some (.write (s.prof.mirrorOffset / 4) [s.mir.gen + 1#32])) } } ∧
      w.length = 64 ∧ wordAt w 0 = s.mir.gen + 1#32 ∧ wordAt w 63 = s.mir.gen + 1#32 ∧
      wordAt w 3 = s.pow.time.setWidth 32 ∧ wordAt w 4 = BitVec.ofNat 32 (s.pow.time.toNat / 2 ^ 32) ∧
      ShowsPart s w ∧ ShowsCounts s t.mir.attention w ∧
      ∀ i, (s.mir.attention.get i = .waiting → t.mir.attention.get i = .recorded (s.mir.gen + 1#32)) ∧
        (s.mir.attention.get i ≠ .waiting → t.mir.attention.get i = s.mir.attention.get i)) ∧
  (∀ (s : State) (w : MirrorWrite) (off : Nat) (ws : List Word), s.mir.write = some w → s.dram.entryReq = none → s.memoryWf = true →
    s.dram.grant = some (.source .mirror (.write off ws)) →
    let stored (t : State) : Prop :=
      (∀ a, off ≤ a → a < off + ws.length → readCell dramDefault t.dram.cells a = encodeWord (wordAt ws (a - off))) ∧
      (∀ a, a < off ∨ off + ws.length ≤ a → readCell dramDefault t.dram.cells a = readCell dramDefault s.dram.cells a)
    (∀ k first count, w.k = k → (k, first, count) ∈ [(0, 1, 15), (1, 16, 16), (2, 32, 16), (3, 48, 14), (4, 63, 1)] →
      ∃ t, exec .partRequestGrantEnd s = .next t ∧ stored t ∧
        t = { s with
          dram := { s.dram with
            grant := none, cells := t.dram.cells
            waiting := s.dram.waiting.set .mirror (some (.write (s.prof.mirrorOffset / 4 + first) ((w.copy.drop first).take count))) }
          mir := { s.mir with write := some { w with k := k + 1 } } }) ∧
    (w.k = 5 → ∃ t, exec .mirrorWriteComplete s = .next t ∧ stored t ∧
      t = { s with
        dram := { s.dram with grant := none, cells := t.dram.cells }
        mir := { s.mir with write := none, last := some s.mir.gen } }))

/-! ## Resets and start-up (R178 to R189) -/

/-- R78, R122, R139, R149, R178, R179, R104: power loss and power-on give every block its power-on values; the lock store and the
flash stay, but for an operation cut off. RESTART keeps besides the time base, the capture slots and tracked levels (contact edges still held are captured first, log 15), the
DRAM-held mark, and with the mark the DRAM's words, in self-refresh, the grant in progress carried to its end; and (log 28) the profile
in force, its state, the release result, the coarse mark and a residency that runs. The start-up phase held meanwhile is PROFILE (log 44). When a reset ends the strap is sampled, up to four
stalled requests join each empty queue and the READ of block 0 begins. -/
def Obligations.ResetsTakeEachBlock : Prop :=
  ∀ s : State,
    (∃ t, exec .powerOn s = .next t ∧ PoweredOn s t .powerOnReset ∧ FlashCutOff s t) ∧
    (∃ t, exec .powerLoss s = .next t ∧ PoweredOn s t .off ∧ FlashCutOff s t) ∧
    (s.su.supply = .running → ∃ t, exec .restartAsserted s = .next t ∧ FlashCutOff s t ∧
      t = { s with
        ports := ⟨emptied s.ports.svp, emptied s.ports.mnp⟩
        ctx := State.reset.ctx
        stg := State.reset.stg
        com := { State.reset.com with sched := startOfRound s.prof }
        flash := { State.reset.flash with cells := t.flash.cells }
        img := State.reset.img
        dram := { State.reset.dram with
          cells := t.dram.cells, rows := t.dram.rows
          mode := if s.su.dramHeld then .selfRefresh else .down
          residency := if s.su.dramHeld = true ∧ s.dram.mode = .selfRefresh then s.dram.residency else 0 }
        pow := { s.pow with
          state := .starting, entryPending := false, wakeCause := none, wakeTimer := none, relapse := 0
          heldEvents := [], heldExit := false }
        con := t.con
        quiet := State.reset.quiet
        mir := State.reset.mir
        su := { State.reset.su with
          supply := .restart, cause := 2, dramHeld := s.su.dramHeld, profState := s.su.profState, release := s.su.release }
        free := t.free } ∧
      AllClosed s.prof t.dram.rows ∧ t.attn = false ∧ t.svrst = false ∧ t.con.pin = s.con.pin ∧
      (s.pow.heldEvents = [] → t.con = s.con) ∧
      (s.dram.grant = none ∨ (∃ r off len, s.dram.grant = some (.source r (.read off len))) ∨
        (∃ off, s.dram.grant = some (.patrol off)) → t.dram.cells = s.dram.cells) ∧
      (∀ r off ws, s.dram.grant = some (.source r (.write off ws)) → s.memoryWf = true →
        (∀ a, off ≤ a → a < off + ws.length → readCell dramDefault t.dram.cells a = encodeWord (wordAt ws (a - off))) ∧
        (∀ a, a < off ∨ off + ws.length ≤ a → readCell dramDefault t.dram.cells a = readCell dramDefault s.dram.cells a)) ∧
      (∀ r off w en, s.dram.grant = some (.source r (.rmw off w en)) → s.memoryWf = true →
        (∀ a, a ≠ off → readCell dramDefault t.dram.cells a = readCell dramDefault s.dram.cells a) ∧
        ((readCode (readCell dramDefault s.dram.cells off)).bad = false → readCell dramDefault t.dram.cells off =
          encodeWord (mergeWord (readCode (readCell dramDefault s.dram.cells off)).word w en)) ∧
        ((readCode (readCell dramDefault s.dram.cells off)).bad = true → t.dram.cells = s.dram.cells)) ∧
      (∀ off, s.dram.grant = some (.writeBack off) → s.memoryWf = true →
        (∀ a, a ≠ off → readCell dramDefault t.dram.cells a = readCell dramDefault s.dram.cells a) ∧
        (∀ w, readCode (readCell dramDefault s.dram.cells off) = .corrected w →
          readCell dramDefault t.dram.cells off = encodeWord w) ∧
        ((∀ w, readCode (readCell dramDefault s.dram.cells off) ≠ .corrected w) → t.dram.cells = s.dram.cells))) ∧
    (s.su.supply ≠ .running → exec .restartAsserted s = .next s) ∧
    (∀ strap : Bool, s.ports.svp.queue = [] → s.ports.mnp.queue = [] →
      let joined (x : PortState) : PortState := { x with queue := x.bus.take 4, bus := x.bus.drop 4 }
      let begun : State := { s with
        ports := ⟨joined s.ports.svp, joined s.ports.mnp⟩
        pow := { s.pow with coarse := false }
        su := { s.su with supply := .running, strap := strap, phase := .profile }
        flash := { s.flash with startup := [.suProfile] } }
      (s.su.supply = .restart → exec (.restartReleased strap) s = .next begun) ∧
      (s.su.supply = .powerOnReset → exec (.powerOnResetEnd strap) s = .next begun))

/-- R105 to R107, R169, R181 to R184, R137, R150, R148: a valid block 0 is loaded, with any other the safe profile is taken and
PROFILE raised; an input that leaves OFF has its tracked level sampled. Without the strap the release result is 0; with it and an
IMAGE-ERASE or BOOT-REWRITE forbid 2; else blocks 1 to 255 are blank-checked in turn, a block not blank gives 3 and the last blank
one clears the store and gives 1. Dirty is set where the profile state, a contact level, a class's words or the release result that the
mirror shows changes (R173). A cold fill leaves every word zero, those of the geometry by R137 and those beyond it by the model's
choice (log 6), eight refreshes owed and the mark set; a warm exit leaves the words and owes none; mount follows. -/
def Obligations.StartUpLoadsReleasesAndBringsUpDram : Prop :=
  (∀ s : State, JobAtDevice s .suProfile → ∃ v t, exec .readJobEnd s = .next t ∧
    v = { s with
      flash := { s.flash with current := none }
      con := { s.con with tracked := v.con.tracked }
      prof := v.prof
      com := { s.com with sched := startOfRound v.prof }
      dram := { s.dram with rows := v.dram.rows }
      su := { s.su with profState := v.su.profState }
      mir := { s.mir with dirty := v.mir.dirty, attention := v.mir.attention } } ∧
    AllClosed v.prof v.dram.rows ∧
    (∀ p, parseProfile (flashWords s.flash.cells 0 128) = some p → v.prof = p ∧ v.su.profState = .loaded ∧
      v.mir = { s.mir with dirty := v.mir.dirty } ∧
      (v.mir.dirty = true ↔ s.mir.dirty = true ∨ s.su.profState ≠ .loaded ∨ (∃ i, v.shownLevel i ≠ s.shownLevel i) ∨
        (∃ c, v.classWords c ≠ s.classWords c))) ∧
    (parseProfile (flashWords s.flash.cells 0 128) = none → v.prof = safeProfile ∧ v.su.profState = .safe ∧
      v.mir = { s.mir with dirty := true, attention := s.mir.attention.set Cause.profile.ix .waiting }) ∧
    (∀ i, v.con.tracked.get i = if (s.prof.contacts.get i).mode = .off ∧ (v.prof.contacts.get i).mode ≠ .off then s.con.pin.get i
      else s.con.tracked.get i) ∧
    (s.su.strap = false → InDramPhase v t 0) ∧
    (s.su.strap = true → s.lock.imageErase = true ∨ s.lock.bootRewrite = true → InDramPhase v t 2) ∧
    (s.su.strap = true → s.lock.imageErase = false → s.lock.bootRewrite = false →
      t = { v with su := { v.su with phase := .release }, flash := { v.flash with startup := [.suBlank 1] } })) ∧
  (∀ (s : State) (b : Nat), JobAtDevice s (.suBlank b) → s.su.phase = .release → s.memoryWf = true →
    let u : State := { s with flash := { s.flash with current := none } }
    let blank := ∀ i, i < 1024 → readCell erasedWord s.flash.cells (b * 1024 + i) = erasedWord
    ∃ t, exec .blankCheckEnd s = .next t ∧
      (¬ blank → InDramPhase u t 3) ∧
      (blank → b < 255 → t = { u with flash := { u.flash with startup := [.suBlank (b + 1)] } }) ∧
      (blank → 255 ≤ b → InDramPhase { u with
        lock := ⟨false, false, false, false, 1, 255, 0⟩, mir := { s.mir with dirty := true } } t 1)) ∧
  (∀ s : State, s.su.supply = .running →
    let mounting (u : State) (warm : Bool) : State := { u with
      su := { u.su with phase := .mount, warm := warm, mount := ⟨.leads, [], []⟩ }
      flash := { u.flash with startup := [.suPage 256 0] } }
    (s.dram.mode = .filling → ∃ t, exec .coldFillEnd s = .next t ∧ AllClosed s.prof t.dram.rows ∧
      (∀ a, readDram t.dram.cells a 1 = [(a, .clean 0#32)]) ∧
      t = mounting { s with
        dram := { Woken s with exitReq := s.dram.exitReq, residency := s.dram.residency, cells := [], owed := 8, rows := t.dram.rows }
        su := { s.su with dramHeld := true } } false) ∧
    (s.dram.mode = .selfRefresh → s.dram.exitReq = true → s.pow.state = .starting →
      ∃ u, u = s.pass (1 - s.dram.residency) ∧ exec .selfRefreshExit s = .next (mounting { u with dram := Woken u } true)))

/-- R185 to R187, R191 (log 38): mount reads page 0 of every block 256 to 2047 and keeps the class of each that is not ERASED. With a VALID block
the one with the newest lead is the head, and its pages 1 to 15 are read: the head page is one past the last page not erased, the
committed and placed sequences are those of the last valid page, the next page sequence one past its own and one more for each
page after it that is neither. With no VALID block, block 256 is blank-checked and is the head at page 0, or at page 16 when it is
not blank. While the run is short of the spare target and the next block ERASED that block is blank-checked and joins it; at the target, at a block
not ERASED or at one that is not blank, mount ends with the lead of the tail as the oldest retained page sequence, and RECOVERY follows: a warm start
reads class 0's first slot not committed for the STAGER requester (R188), a cold one opens. Each change of a value that the
mirror shows marks it dirty (R20, R47, R173). -/
def Obligations.MountFindsTheHead : Prop :=
  (∀ (s : State) (b page : Nat), JobAtDevice s (.suPage b page) → s.com.held = none →
    let k := classifyPage (flashPage s.flash.cells b page)
    let m := s.su.mount
    let u : State := { s with flash := { s.flash with current := none } }
    let seen := if k = .erased then m.seen else m.seen ++ [(b, k)]
    (m.stage = .leads → b < 2047 → exec .readJobEnd s = .next { u with
      su := { s.su with mount := { m with seen := seen } }, flash := { u.flash with startup := [.suPage (b + 1) 0] } }) ∧
    (m.stage = .leads → 2047 ≤ b → (∀ head lead, newestLead seen none = some (head, lead) → exec .readJobEnd s = .next { u with
        com := { s.com with headBlock := head, begun := true }
        mir := { s.mir with dirty := s.mir.dirty || decide (s.com.headBlock ≠ head) }
        su := { s.su with mountResult := 1, mount := ⟨.pages, seen, [Mount.classAt { m with seen := seen } head]⟩ }
        flash := { u.flash with startup := [.suPage head 1] } }) ∧
      ((∀ x ∈ seen, ∀ h, x.2 ≠ .valid h) → ∃ t, exec .readJobEnd s = .next t ∧ HeadMarked s t ∧
        t.com.headBlock = 256 ∧ t.com.nextPage = 1#32 ∧ t.com.begun = false ∧ t.su.mountResult = 2 ∧
        t.su.mount.stage = .first ∧ t.flash.startup = [.suBlank 256] ∧
        (∀ c, (t.stg.rings.get c).present = false ∧ (t.stg.rings.get c).committed = 0#32 ∧ (t.stg.rings.get c).next = 0#32))) ∧
    (m.stage = .pages → page < 15 → exec .readJobEnd s = .next { u with
      su := { s.su with mount := { m with pages := m.pages ++ [k] } }, flash := { u.flash with startup := [.suPage b (page + 1)] } }) ∧
    (m.stage = .pages → 15 ≤ page → ∀ (before after : List PageClass) (h : PageHeader) (used : Nat),
      m.pages ++ [k] = before ++ .valid h :: after → (∀ x ∈ after, ∀ h', x ≠ .valid h') →
      used ≤ after.length → (∀ x ∈ after.drop used, x = .erased) → (∀ x, (after.take used).getLast? = some x → x ≠ .erased) →
      ∃ t, exec .readJobEnd s = .next t ∧ HeadMarked s t ∧ t.com.headPage = before.length + 1 + used ∧
        t.com.nextPage = h.seq + 1#32 + BitVec.ofNat 32 (after.filter (fun x => decide (x = .neither))).length ∧
        t.com.placedSeq = h.placed ∧ t.com.placedPresent = h.mask ∧
        (∀ c, (s.prof.classes.get c).configured = true → (t.stg.rings.get c).committed = h.placed.get c ∧
          (t.stg.rings.get c).present = h.mask.get c) ∧
        ∃ v : State, v = { u with
            stg := { s.stg with rings := v.stg.rings }
            com := { s.com with headPage := t.com.headPage, nextPage := t.com.nextPage, placedSeq := h.placed, placedPresent := h.mask }
            su := { s.su with mount := { m with stage := .spare, pages := m.pages ++ [k] } }
            mir := { s.mir with dirty := v.mir.dirty } } ∧
          (∀ c, v.stg.rings.get c = if (s.prof.classes.get c).configured = true then
              ⟨if h.mask.get c = true then h.placed.get c + 1#32 else 0#32, h.placed.get c, h.mask.get c, 0, 0⟩
            else ⟨0#32, 0#32, false, 0, 0⟩) ∧
          HeadMarked s v ∧ RunGrows v t)) ∧
  (∀ (x y : Nat) (hx hy : PageHeader) (more : List (Nat × PageClass)),
    newestLead [] (some (x, hx.seq)) = some (x, hx.seq) ∧ newestLead ((x, .valid hx) :: more) none = newestLead more (some (x, hx.seq)) ∧
    (newer hy.seq hx.seq = true → newestLead ((y, .valid hy) :: more) (some (x, hx.seq)) = newestLead more (some (y, hy.seq))) ∧
    (newer hy.seq hx.seq = false → newestLead ((y, .valid hy) :: more) (some (x, hx.seq)) = newestLead more (some (x, hx.seq)))) ∧
  (∀ (s : State) (b : Nat), JobAtDevice s (.suBlank b) → s.su.phase = .mount → s.memoryWf = true →
    let blank := ∀ i, i < 1024 → readCell erasedWord s.flash.cells (b * 1024 + i) = erasedWord
    ∃ t, exec .blankCheckEnd s = .next t ∧ (s.su.mount.stage = .first ∨ s.su.mount.stage = .spare → HeadMarked s t) ∧
    (s.su.mount.stage = .first → blank → t.com.headPage = 0) ∧ (s.su.mount.stage = .first → ¬ blank → t.com.headPage = 16) ∧
    (s.su.mount.stage = .spare → blank → t.com.ahead = s.com.ahead + 1) ∧
    (s.su.mount.stage = .spare → ¬ blank → t.com.ahead = s.com.ahead ∧ t.com.oldest = (match s.su.mount.classAt s.com.tail with
      | .valid h => some h.seq
      | _ => none)) ∧
    let u : State := { s with
      flash := { s.flash with current := none }, su := { s.su with mount := { s.su.mount with stage := .spare } } }
    let headed (page : Nat) : State := { u with
      com := { s.com with headPage := page }, mir := { s.mir with dirty := s.mir.dirty || decide (s.com.headPage ≠ page) } }
    (s.su.mount.stage = .first → blank → RunGrows (headed 0) t) ∧ (s.su.mount.stage = .first → ¬ blank → RunGrows (headed 16) t) ∧
    (s.su.mount.stage = .spare → blank → RunGrows { u with
      com := { s.com with ahead := s.com.ahead + 1 }, mir := { s.mir with dirty := true } } t) ∧
    (s.su.mount.stage = .spare → ¬ blank → MountEnds u t))

/-- R188, R136, R189: a recovery read that is accepted takes its record back: it joins its class's commit queue and staged run, and
the slot of the next sequence is read, until the ring is full. One that is not, or the last, leads to the next configured class's
first uncommitted slot, and after the last class start-up opens; Corrected words are counted and offered for a write-back, and an
Uncorrectable word is reported with requester 3. What recovery takes back marks the mirror dirty (R173). After a cold mount start-up
opens at once. -/
def Obligations.RecoveryThenOpen : Prop :=
  (∀ (s : State) (c : ClassId) (q : Seq) (off : Nat), s.dram.grant = some (.source .stager (.read off 16)) →
    s.su.recovery = some ⟨c, q⟩ → s.dram.entryReq = none →
    let rs := readDram s.dram.cells off 16
    let ring := s.stg.rings.get c
    let taken (u : State) : State := { u with
      stg := { u.stg with rings := s.stg.rings.set c { ring with next := q + 1#32, staged := ring.staged + 1 } }
      com := { s.com with queues := s.com.queues.set c (s.com.queues.get c ++ [q]) }
      su := { s.su with recovered := s.su.recovered.set c (s.su.recovered.get c + 1) }
      mir := { u.mir with dirty := true } }
    let reads (v : State) (d : ClassId) (at_ : Seq) : State := { v with
      su := { v.su with recovery := some ⟨d, at_⟩ }
      dram := { v.dram with waiting := v.dram.waiting.set .stager (some (.read
        ((s.prof.classes.get d).base / 4 + at_.toNat % (s.prof.classes.get d).capacity * 16) 16)) } }
    let following (d : ClassId) := c < d ∧ (s.prof.classes.get d).configured = true ∧
      ∀ j, c < j → j < d → (s.prof.classes.get j).configured = false
    let last := ∀ j, c < j → (s.prof.classes.get j).configured = false
    ∃ u : State, u = { s with
        stg := { s.stg with outbox := u.stg.outbox, lost := u.stg.lost }
        dram := { s.dram with
          grant := none, corrected := u.dram.corrected, uncorrectable := u.dram.uncorrectable
          correction := correctionsAfter s.dram.correction rs }
        mir := { s.mir with dirty := u.mir.dirty, attention := u.mir.attention } } ∧
      (s.dram.corrected ≤ 65535 → u.dram.corrected = min 65535 (s.dram.corrected + correctedCount rs)) ∧
      ((∀ x ∈ rs, ∃ w, x.2 = .clean w) → u = { s with dram := { s.dram with grant := none } }) ∧
      ((∀ x ∈ rs, x.2.bad = false) → u.stg = s.stg ∧ u.mir.attention = s.mir.attention ∧
        u.dram.uncorrectable = s.dram.uncorrectable) ∧
      (∀ at_ syn, firstBad rs = some (at_, syn) → slotAccepted rs q = false ∧
        u.mir.attention.get Cause.fault.ix = .waiting ∧ u.mir.dirty = true ∧
        (s.dram.uncorrectable ≤ 65535 → u.dram.uncorrectable = min 65535 (s.dram.uncorrectable + badCount rs)) ∧
        Offered s u (partRecord 0xF2#8 false s.stamp [BitVec.ofNat 32 (at_ * 4), 3#32, BitVec.ofNat 32 syn.toNat]) [.fault]) ∧
      (slotAccepted rs q = true →
        (ring.staged + 1 ≠ (s.prof.classes.get c).capacity → exec .recoveryReadComplete s = .next (reads (taken u) c (q + 1#32))) ∧
        (ring.staged + 1 = (s.prof.classes.get c).capacity →
          (∀ d, following d → exec .recoveryReadComplete s = .next (reads (taken u) d (s.stg.rings.get d).next)) ∧
          (last → ∃ t, exec .recoveryReadComplete s = .next t ∧ Opened (taken u) t))) ∧
      (slotAccepted rs q = false →
        (∀ d, following d → exec .recoveryReadComplete s = .next (reads u d (s.stg.rings.get d).next)) ∧
        (last → ∃ t, exec .recoveryReadComplete s = .next t ∧ Opened u t))) ∧
  (∀ (s : State) (b : Nat), JobAtDevice s (.suBlank b) → s.su.phase = .mount → s.su.mount.stage = .spare → s.su.warm = false →
    (∃ i, i < 1024 ∧ readCell erasedWord s.flash.cells (b * 1024 + i) ≠ erasedWord) →
    ∃ t, exec .blankCheckEnd s = .next t ∧ Opened { s with
      flash := { s.flash with current := none }
      com := { s.com with oldest := match s.su.mount.classAt s.com.tail with
        | .valid h => some h.seq
        | _ => none } } t)

end Statements
end

