-- ==== Sys2Proof/Laws/Frames.lean ====
section
/-! SUPPORT. For each shared operation, everything it leaves unchanged: a conjunction of the fields of the state it never writes (where it writes a part of `dram`, `flash` or `img`, the parts `dram.cells`, `dram.rows`, `flash.cells`, `img.burn` it does not). Tagged simp: each conjunct rewrites, so no proof unfolds an operation for a field it does not write. -/

namespace Sys2Proof.Machine

@[simp] theorem State.mark_frame (s : State) :
    (State.mark s).pending = s.pending ∧ (State.mark s).ports = s.ports ∧ (State.mark s).ctx = s.ctx ∧ (State.mark s).stg = s.stg ∧ (State.mark s).com = s.com ∧ (State.mark s).flash = s.flash ∧ (State.mark s).img = s.img ∧ (State.mark s).lock = s.lock ∧ (State.mark s).dram = s.dram ∧ (State.mark s).pow = s.pow ∧ (State.mark s).con = s.con ∧ (State.mark s).quiet = s.quiet ∧ (State.mark s).su = s.su ∧ (State.mark s).prof = s.prof ∧ (State.mark s).free = s.free := by
  unfold State.mark
  try dsimp only
  (repeat' split) <;> simp

@[simp] theorem State.markIf_frame (b : Bool) (s : State) :
    (State.markIf b s).pending = s.pending ∧ (State.markIf b s).ports = s.ports ∧ (State.markIf b s).ctx = s.ctx ∧ (State.markIf b s).stg = s.stg ∧ (State.markIf b s).com = s.com ∧ (State.markIf b s).flash = s.flash ∧ (State.markIf b s).img = s.img ∧ (State.markIf b s).lock = s.lock ∧ (State.markIf b s).dram = s.dram ∧ (State.markIf b s).pow = s.pow ∧ (State.markIf b s).con = s.con ∧ (State.markIf b s).quiet = s.quiet ∧ (State.markIf b s).su = s.su ∧ (State.markIf b s).prof = s.prof ∧ (State.markIf b s).free = s.free := by
  unfold State.markIf
  try dsimp only
  (repeat' split) <;> simp

@[simp] theorem State.raise_frame (c : Cause) (s : State) :
    (State.raise c s).pending = s.pending ∧ (State.raise c s).ports = s.ports ∧ (State.raise c s).ctx = s.ctx ∧ (State.raise c s).stg = s.stg ∧ (State.raise c s).com = s.com ∧ (State.raise c s).flash = s.flash ∧ (State.raise c s).img = s.img ∧ (State.raise c s).lock = s.lock ∧ (State.raise c s).dram = s.dram ∧ (State.raise c s).pow = s.pow ∧ (State.raise c s).con = s.con ∧ (State.raise c s).quiet = s.quiet ∧ (State.raise c s).su = s.su ∧ (State.raise c s).prof = s.prof ∧ (State.raise c s).free = s.free := by
  unfold State.raise
  try dsimp only
  (repeat' split) <;> simp

@[simp] theorem State.acknowledge_frame (g : Word) (s : State) :
    (State.acknowledge g s).pending = s.pending ∧ (State.acknowledge g s).ports = s.ports ∧ (State.acknowledge g s).ctx = s.ctx ∧ (State.acknowledge g s).stg = s.stg ∧ (State.acknowledge g s).com = s.com ∧ (State.acknowledge g s).flash = s.flash ∧ (State.acknowledge g s).img = s.img ∧ (State.acknowledge g s).lock = s.lock ∧ (State.acknowledge g s).dram = s.dram ∧ (State.acknowledge g s).pow = s.pow ∧ (State.acknowledge g s).con = s.con ∧ (State.acknowledge g s).quiet = s.quiet ∧ (State.acknowledge g s).su = s.su ∧ (State.acknowledge g s).prof = s.prof ∧ (State.acknowledge g s).free = s.free := by
  unfold State.acknowledge
  try dsimp only
  (repeat' split) <;> simp

@[simp] theorem State.setRing_frame (c : ClassId) (r : ClassRing) (s : State) :
    (State.setRing c r s).pending = s.pending ∧ (State.setRing c r s).ports = s.ports ∧ (State.setRing c r s).ctx = s.ctx ∧ (State.setRing c r s).com = s.com ∧ (State.setRing c r s).flash = s.flash ∧ (State.setRing c r s).img = s.img ∧ (State.setRing c r s).lock = s.lock ∧ (State.setRing c r s).dram = s.dram ∧ (State.setRing c r s).pow = s.pow ∧ (State.setRing c r s).con = s.con ∧ (State.setRing c r s).quiet = s.quiet ∧ (State.setRing c r s).su = s.su ∧ (State.setRing c r s).prof = s.prof ∧ (State.setRing c r s).free = s.free := by
  unfold State.setRing
  try dsimp only
  (repeat' split) <;> simp

@[simp] theorem State.reserve_frame (c : ClassId) (s : State) :
    (State.reserve c s).pending = s.pending ∧ (State.reserve c s).ports = s.ports ∧ (State.reserve c s).ctx = s.ctx ∧ (State.reserve c s).com = s.com ∧ (State.reserve c s).flash = s.flash ∧ (State.reserve c s).img = s.img ∧ (State.reserve c s).lock = s.lock ∧ (State.reserve c s).dram = s.dram ∧ (State.reserve c s).pow = s.pow ∧ (State.reserve c s).con = s.con ∧ (State.reserve c s).quiet = s.quiet ∧ (State.reserve c s).su = s.su ∧ (State.reserve c s).prof = s.prof ∧ (State.reserve c s).free = s.free := by
  unfold State.reserve
  try dsimp only
  (repeat' split) <;> simp

@[simp] theorem State.release_frame (c : ClassId) (s : State) :
    (State.release c s).pending = s.pending ∧ (State.release c s).ports = s.ports ∧ (State.release c s).ctx = s.ctx ∧ (State.release c s).com = s.com ∧ (State.release c s).flash = s.flash ∧ (State.release c s).img = s.img ∧ (State.release c s).lock = s.lock ∧ (State.release c s).dram = s.dram ∧ (State.release c s).pow = s.pow ∧ (State.release c s).con = s.con ∧ (State.release c s).quiet = s.quiet ∧ (State.release c s).su = s.su ∧ (State.release c s).prof = s.prof ∧ (State.release c s).free = s.free := by
  unfold State.release
  try dsimp only
  (repeat' split) <;> simp

@[simp] theorem State.offer_frame (r : Record) (s : State) :
    (State.offer r s).pending = s.pending ∧ (State.offer r s).ports = s.ports ∧ (State.offer r s).ctx = s.ctx ∧ (State.offer r s).com = s.com ∧ (State.offer r s).flash = s.flash ∧ (State.offer r s).img = s.img ∧ (State.offer r s).lock = s.lock ∧ (State.offer r s).dram = s.dram ∧ (State.offer r s).pow = s.pow ∧ (State.offer r s).con = s.con ∧ (State.offer r s).quiet = s.quiet ∧ (State.offer r s).su = s.su ∧ (State.offer r s).prof = s.prof ∧ (State.offer r s).free = s.free := by
  unfold State.offer
  try dsimp only
  (repeat' split) <;> simp

@[simp] theorem State.offerNow_frame (kind : Byte) (urgent : Bool) (payload : List Word) (s : State) :
    (State.offerNow kind urgent payload s).pending = s.pending ∧ (State.offerNow kind urgent payload s).ports = s.ports ∧ (State.offerNow kind urgent payload s).ctx = s.ctx ∧ (State.offerNow kind urgent payload s).com = s.com ∧ (State.offerNow kind urgent payload s).flash = s.flash ∧ (State.offerNow kind urgent payload s).img = s.img ∧ (State.offerNow kind urgent payload s).lock = s.lock ∧ (State.offerNow kind urgent payload s).dram = s.dram ∧ (State.offerNow kind urgent payload s).pow = s.pow ∧ (State.offerNow kind urgent payload s).con = s.con ∧ (State.offerNow kind urgent payload s).quiet = s.quiet ∧ (State.offerNow kind urgent payload s).su = s.su ∧ (State.offerNow kind urgent payload s).prof = s.prof ∧ (State.offerNow kind urgent payload s).free = s.free := by
  unfold State.offerNow
  try dsimp only
  (repeat' split) <;> simp

@[simp] theorem State.offerDramFault_frame (off requester : Nat) (syn : BitVec 7) (s : State) :
    (State.offerDramFault off requester syn s).pending = s.pending ∧ (State.offerDramFault off requester syn s).ports = s.ports ∧ (State.offerDramFault off requester syn s).ctx = s.ctx ∧ (State.offerDramFault off requester syn s).com = s.com ∧ (State.offerDramFault off requester syn s).flash = s.flash ∧ (State.offerDramFault off requester syn s).img = s.img ∧ (State.offerDramFault off requester syn s).lock = s.lock ∧ (State.offerDramFault off requester syn s).dram = s.dram ∧ (State.offerDramFault off requester syn s).pow = s.pow ∧ (State.offerDramFault off requester syn s).con = s.con ∧ (State.offerDramFault off requester syn s).quiet = s.quiet ∧ (State.offerDramFault off requester syn s).su = s.su ∧ (State.offerDramFault off requester syn s).prof = s.prof ∧ (State.offerDramFault off requester syn s).free = s.free := by
  unfold State.offerDramFault
  try dsimp only
  (repeat' split) <;> simp

@[simp] theorem State.offerJournalEvent_frame (event block page : Nat) (s : State) :
    (State.offerJournalEvent event block page s).pending = s.pending ∧ (State.offerJournalEvent event block page s).ports = s.ports ∧ (State.offerJournalEvent event block page s).ctx = s.ctx ∧ (State.offerJournalEvent event block page s).com = s.com ∧ (State.offerJournalEvent event block page s).flash = s.flash ∧ (State.offerJournalEvent event block page s).img = s.img ∧ (State.offerJournalEvent event block page s).lock = s.lock ∧ (State.offerJournalEvent event block page s).dram = s.dram ∧ (State.offerJournalEvent event block page s).pow = s.pow ∧ (State.offerJournalEvent event block page s).con = s.con ∧ (State.offerJournalEvent event block page s).quiet = s.quiet ∧ (State.offerJournalEvent event block page s).su = s.su ∧ (State.offerJournalEvent event block page s).prof = s.prof ∧ (State.offerJournalEvent event block page s).free = s.free := by
  unfold State.offerJournalEvent
  try dsimp only
  (repeat' split) <;> simp

@[simp] theorem State.offerDoze_frame (direction cause : Nat) (s : State) :
    (State.offerDoze direction cause s).pending = s.pending ∧ (State.offerDoze direction cause s).ports = s.ports ∧ (State.offerDoze direction cause s).ctx = s.ctx ∧ (State.offerDoze direction cause s).com = s.com ∧ (State.offerDoze direction cause s).flash = s.flash ∧ (State.offerDoze direction cause s).img = s.img ∧ (State.offerDoze direction cause s).lock = s.lock ∧ (State.offerDoze direction cause s).dram = s.dram ∧ (State.offerDoze direction cause s).pow = s.pow ∧ (State.offerDoze direction cause s).con = s.con ∧ (State.offerDoze direction cause s).quiet = s.quiet ∧ (State.offerDoze direction cause s).su = s.su ∧ (State.offerDoze direction cause s).prof = s.prof ∧ (State.offerDoze direction cause s).free = s.free := by
  unfold State.offerDoze
  try dsimp only
  (repeat' split) <;> simp

@[simp] theorem State.offerRefreshLost_frame (s : State) :
    (State.offerRefreshLost s).pending = s.pending ∧ (State.offerRefreshLost s).ports = s.ports ∧ (State.offerRefreshLost s).ctx = s.ctx ∧ (State.offerRefreshLost s).com = s.com ∧ (State.offerRefreshLost s).flash = s.flash ∧ (State.offerRefreshLost s).img = s.img ∧ (State.offerRefreshLost s).lock = s.lock ∧ (State.offerRefreshLost s).dram = s.dram ∧ (State.offerRefreshLost s).pow = s.pow ∧ (State.offerRefreshLost s).con = s.con ∧ (State.offerRefreshLost s).quiet = s.quiet ∧ (State.offerRefreshLost s).su = s.su ∧ (State.offerRefreshLost s).prof = s.prof ∧ (State.offerRefreshLost s).free = s.free := by
  unfold State.offerRefreshLost
  try dsimp only
  (repeat' split) <;> simp

@[simp] theorem State.lostRecord_frame (s : State) :
    (State.lostRecord s).pending = s.pending ∧ (State.lostRecord s).ports = s.ports ∧ (State.lostRecord s).ctx = s.ctx ∧ (State.lostRecord s).com = s.com ∧ (State.lostRecord s).flash = s.flash ∧ (State.lostRecord s).img = s.img ∧ (State.lostRecord s).lock = s.lock ∧ (State.lostRecord s).dram = s.dram ∧ (State.lostRecord s).pow = s.pow ∧ (State.lostRecord s).con = s.con ∧ (State.lostRecord s).quiet = s.quiet ∧ (State.lostRecord s).su = s.su ∧ (State.lostRecord s).prof = s.prof ∧ (State.lostRecord s).free = s.free := by
  unfold State.lostRecord
  try dsimp only
  (repeat' split) <;> simp

@[simp] theorem State.offerFront_frame (r : Record) (s : State) :
    (State.offerFront r s).pending = s.pending ∧ (State.offerFront r s).ports = s.ports ∧ (State.offerFront r s).ctx = s.ctx ∧ (State.offerFront r s).com = s.com ∧ (State.offerFront r s).flash = s.flash ∧ (State.offerFront r s).img = s.img ∧ (State.offerFront r s).lock = s.lock ∧ (State.offerFront r s).dram = s.dram ∧ (State.offerFront r s).pow = s.pow ∧ (State.offerFront r s).con = s.con ∧ (State.offerFront r s).quiet = s.quiet ∧ (State.offerFront r s).su = s.su ∧ (State.offerFront r s).prof = s.prof ∧ (State.offerFront r s).free = s.free := by
  unfold State.offerFront
  try dsimp only
  (repeat' split) <;> simp

@[simp] theorem State.pass_frame (n : Nat) (s : State) :
    (State.pass n s).pending = s.pending ∧ (State.pass n s).ports = s.ports ∧ (State.pass n s).stg = s.stg ∧ (State.pass n s).flash.cells = s.flash.cells ∧ (State.pass n s).img.burn = s.img.burn ∧ (State.pass n s).lock = s.lock ∧ (State.pass n s).dram.cells = s.dram.cells ∧ (State.pass n s).dram.rows = s.dram.rows ∧ (State.pass n s).mir = s.mir ∧ (State.pass n s).su = s.su ∧ (State.pass n s).prof = s.prof ∧ (State.pass n s).free = s.free := by
  unfold State.pass
  try dsimp only
  (repeat' split) <;> simp

@[simp] theorem State.present_frame (who : Source) (q : DramReq) (s : State) :
    (State.present who q s).pending = s.pending ∧ (State.present who q s).ports = s.ports ∧ (State.present who q s).ctx = s.ctx ∧ (State.present who q s).stg = s.stg ∧ (State.present who q s).com = s.com ∧ (State.present who q s).flash = s.flash ∧ (State.present who q s).img = s.img ∧ (State.present who q s).lock = s.lock ∧ (State.present who q s).dram.cells = s.dram.cells ∧ (State.present who q s).dram.rows = s.dram.rows ∧ (State.present who q s).pow = s.pow ∧ (State.present who q s).con = s.con ∧ (State.present who q s).quiet = s.quiet ∧ (State.present who q s).mir = s.mir ∧ (State.present who q s).su = s.su ∧ (State.present who q s).prof = s.prof ∧ (State.present who q s).free = s.free := by
  unfold State.present
  try dsimp only
  (repeat' split) <;> simp

@[simp] theorem State.closeAll_frame (s : State) :
    (State.closeAll s).pending = s.pending ∧ (State.closeAll s).ports = s.ports ∧ (State.closeAll s).ctx = s.ctx ∧ (State.closeAll s).stg = s.stg ∧ (State.closeAll s).com = s.com ∧ (State.closeAll s).flash = s.flash ∧ (State.closeAll s).img = s.img ∧ (State.closeAll s).lock = s.lock ∧ (State.closeAll s).dram.cells = s.dram.cells ∧ (State.closeAll s).pow = s.pow ∧ (State.closeAll s).con = s.con ∧ (State.closeAll s).quiet = s.quiet ∧ (State.closeAll s).mir = s.mir ∧ (State.closeAll s).su = s.su ∧ (State.closeAll s).prof = s.prof ∧ (State.closeAll s).free = s.free := by
  unfold State.closeAll
  try dsimp only
  (repeat' split) <;> simp

@[simp] theorem State.beginGrant_frame (g : Grant) (s : State) :
    (State.beginGrant g s).pending = s.pending ∧ (State.beginGrant g s).ports = s.ports ∧ (State.beginGrant g s).ctx = s.ctx ∧ (State.beginGrant g s).stg = s.stg ∧ (State.beginGrant g s).com = s.com ∧ (State.beginGrant g s).flash = s.flash ∧ (State.beginGrant g s).img = s.img ∧ (State.beginGrant g s).lock = s.lock ∧ (State.beginGrant g s).dram.cells = s.dram.cells ∧ (State.beginGrant g s).pow = s.pow ∧ (State.beginGrant g s).con = s.con ∧ (State.beginGrant g s).quiet = s.quiet ∧ (State.beginGrant g s).mir = s.mir ∧ (State.beginGrant g s).su = s.su ∧ (State.beginGrant g s).prof = s.prof ∧ (State.beginGrant g s).free = s.free := by
  unfold State.beginGrant
  try dsimp only
  (repeat' split) <;> simp

@[simp] theorem State.beginEntry_frame (s : State) :
    (State.beginEntry s).pending = s.pending ∧ (State.beginEntry s).ports = s.ports ∧ (State.beginEntry s).ctx = s.ctx ∧ (State.beginEntry s).stg = s.stg ∧ (State.beginEntry s).com = s.com ∧ (State.beginEntry s).flash = s.flash ∧ (State.beginEntry s).img = s.img ∧ (State.beginEntry s).lock = s.lock ∧ (State.beginEntry s).dram.cells = s.dram.cells ∧ (State.beginEntry s).pow = s.pow ∧ (State.beginEntry s).con = s.con ∧ (State.beginEntry s).quiet = s.quiet ∧ (State.beginEntry s).mir = s.mir ∧ (State.beginEntry s).su = s.su ∧ (State.beginEntry s).prof = s.prof ∧ (State.beginEntry s).free = s.free := by
  unfold State.beginEntry
  try dsimp only
  (repeat' split) <;> simp

@[simp] theorem State.endGrant_frame (s : State) :
    (State.endGrant s).pending = s.pending ∧ (State.endGrant s).ports = s.ports ∧ (State.endGrant s).ctx = s.ctx ∧ (State.endGrant s).stg = s.stg ∧ (State.endGrant s).com = s.com ∧ (State.endGrant s).flash = s.flash ∧ (State.endGrant s).img = s.img ∧ (State.endGrant s).lock = s.lock ∧ (State.endGrant s).dram.cells = s.dram.cells ∧ (State.endGrant s).pow = s.pow ∧ (State.endGrant s).con = s.con ∧ (State.endGrant s).quiet = s.quiet ∧ (State.endGrant s).mir = s.mir ∧ (State.endGrant s).su = s.su ∧ (State.endGrant s).prof = s.prof ∧ (State.endGrant s).free = s.free := by
  unfold State.endGrant
  try dsimp only
  (repeat' split) <;> simp

@[simp] theorem State.eccWord_frame (offers : Bool) (s : State) (r : Nat × EccResult) :
    (State.eccWord offers s r).pending = s.pending ∧ (State.eccWord offers s r).ports = s.ports ∧ (State.eccWord offers s r).ctx = s.ctx ∧ (State.eccWord offers s r).stg = s.stg ∧ (State.eccWord offers s r).com = s.com ∧ (State.eccWord offers s r).flash = s.flash ∧ (State.eccWord offers s r).img = s.img ∧ (State.eccWord offers s r).lock = s.lock ∧ (State.eccWord offers s r).dram.cells = s.dram.cells ∧ (State.eccWord offers s r).dram.rows = s.dram.rows ∧ (State.eccWord offers s r).pow = s.pow ∧ (State.eccWord offers s r).con = s.con ∧ (State.eccWord offers s r).quiet = s.quiet ∧ (State.eccWord offers s r).su = s.su ∧ (State.eccWord offers s r).prof = s.prof ∧ (State.eccWord offers s r).free = s.free := by
  unfold State.eccWord
  try dsimp only
  (repeat' split) <;> simp

@[simp] theorem State.eccRead_frame (offers : Bool) (rs : List (Nat × EccResult)) (s : State) :
    (State.eccRead offers rs s).pending = s.pending ∧ (State.eccRead offers rs s).ports = s.ports ∧ (State.eccRead offers rs s).ctx = s.ctx ∧ (State.eccRead offers rs s).stg = s.stg ∧ (State.eccRead offers rs s).com = s.com ∧ (State.eccRead offers rs s).flash = s.flash ∧ (State.eccRead offers rs s).img = s.img ∧ (State.eccRead offers rs s).lock = s.lock ∧ (State.eccRead offers rs s).dram.cells = s.dram.cells ∧ (State.eccRead offers rs s).dram.rows = s.dram.rows ∧ (State.eccRead offers rs s).pow = s.pow ∧ (State.eccRead offers rs s).con = s.con ∧ (State.eccRead offers rs s).quiet = s.quiet ∧ (State.eccRead offers rs s).su = s.su ∧ (State.eccRead offers rs s).prof = s.prof ∧ (State.eccRead offers rs s).free = s.free := by
  unfold State.eccRead
  induction rs generalizing s with
  | nil => simp
  | cons r rs ih => simp [List.foldl, ih]

@[simp] theorem State.faultRecord_frame (requester : Nat) (rs : List (Nat × EccResult)) (s : State) :
    (State.faultRecord requester rs s).pending = s.pending ∧ (State.faultRecord requester rs s).ports = s.ports ∧ (State.faultRecord requester rs s).ctx = s.ctx ∧ (State.faultRecord requester rs s).com = s.com ∧ (State.faultRecord requester rs s).flash = s.flash ∧ (State.faultRecord requester rs s).img = s.img ∧ (State.faultRecord requester rs s).lock = s.lock ∧ (State.faultRecord requester rs s).dram = s.dram ∧ (State.faultRecord requester rs s).pow = s.pow ∧ (State.faultRecord requester rs s).con = s.con ∧ (State.faultRecord requester rs s).quiet = s.quiet ∧ (State.faultRecord requester rs s).su = s.su ∧ (State.faultRecord requester rs s).prof = s.prof ∧ (State.faultRecord requester rs s).free = s.free := by
  unfold State.faultRecord
  try dsimp only
  (repeat' split) <;> simp

@[simp] theorem State.carryOut_frame (q : DramReq) (s : State) :
    (State.carryOut q s).pending = s.pending ∧ (State.carryOut q s).ports = s.ports ∧ (State.carryOut q s).ctx = s.ctx ∧ (State.carryOut q s).stg = s.stg ∧ (State.carryOut q s).com = s.com ∧ (State.carryOut q s).flash = s.flash ∧ (State.carryOut q s).img = s.img ∧ (State.carryOut q s).lock = s.lock ∧ (State.carryOut q s).dram.rows = s.dram.rows ∧ (State.carryOut q s).pow = s.pow ∧ (State.carryOut q s).con = s.con ∧ (State.carryOut q s).quiet = s.quiet ∧ (State.carryOut q s).su = s.su ∧ (State.carryOut q s).prof = s.prof ∧ (State.carryOut q s).free = s.free := by
  unfold State.carryOut
  try dsimp only
  (repeat' split) <;> simp

@[simp] theorem State.reload_frame (s : State) :
    (State.reload s).pending = s.pending ∧ (State.reload s).ports = s.ports ∧ (State.reload s).ctx = s.ctx ∧ (State.reload s).stg = s.stg ∧ (State.reload s).com = s.com ∧ (State.reload s).flash = s.flash ∧ (State.reload s).img = s.img ∧ (State.reload s).lock = s.lock ∧ (State.reload s).dram.cells = s.dram.cells ∧ (State.reload s).dram.rows = s.dram.rows ∧ (State.reload s).pow = s.pow ∧ (State.reload s).con = s.con ∧ (State.reload s).quiet = s.quiet ∧ (State.reload s).mir = s.mir ∧ (State.reload s).su = s.su ∧ (State.reload s).prof = s.prof ∧ (State.reload s).free = s.free := by
  unfold State.reload
  try dsimp only
  (repeat' split) <;> simp

@[simp] theorem State.setPort_frame (p : Port) (ps : PortState) (s : State) :
    (State.setPort p ps s).pending = s.pending ∧ (State.setPort p ps s).ctx = s.ctx ∧ (State.setPort p ps s).stg = s.stg ∧ (State.setPort p ps s).com = s.com ∧ (State.setPort p ps s).flash = s.flash ∧ (State.setPort p ps s).img = s.img ∧ (State.setPort p ps s).lock = s.lock ∧ (State.setPort p ps s).dram = s.dram ∧ (State.setPort p ps s).pow = s.pow ∧ (State.setPort p ps s).con = s.con ∧ (State.setPort p ps s).quiet = s.quiet ∧ (State.setPort p ps s).mir = s.mir ∧ (State.setPort p ps s).su = s.su ∧ (State.setPort p ps s).prof = s.prof ∧ (State.setPort p ps s).free = s.free := by
  unfold State.setPort
  try dsimp only
  (repeat' split) <;> simp

@[simp] theorem State.setCarry_frame (p : Port) (c : Carry) (s : State) :
    (State.setCarry p c s).pending = s.pending ∧ (State.setCarry p c s).ctx = s.ctx ∧ (State.setCarry p c s).stg = s.stg ∧ (State.setCarry p c s).com = s.com ∧ (State.setCarry p c s).flash = s.flash ∧ (State.setCarry p c s).img = s.img ∧ (State.setCarry p c s).lock = s.lock ∧ (State.setCarry p c s).dram = s.dram ∧ (State.setCarry p c s).pow = s.pow ∧ (State.setCarry p c s).con = s.con ∧ (State.setCarry p c s).quiet = s.quiet ∧ (State.setCarry p c s).mir = s.mir ∧ (State.setCarry p c s).su = s.su ∧ (State.setCarry p c s).prof = s.prof ∧ (State.setCarry p c s).free = s.free := by
  unfold State.setCarry
  try dsimp only
  (repeat' split) <;> simp

@[simp] theorem State.answer_frame (p : Port) (r : Response) (s : State) :
    (State.answer p r s).pending = s.pending ∧ (State.answer p r s).ctx = s.ctx ∧ (State.answer p r s).stg = s.stg ∧ (State.answer p r s).com = s.com ∧ (State.answer p r s).flash = s.flash ∧ (State.answer p r s).img = s.img ∧ (State.answer p r s).lock = s.lock ∧ (State.answer p r s).dram = s.dram ∧ (State.answer p r s).pow = s.pow ∧ (State.answer p r s).con = s.con ∧ (State.answer p r s).quiet = s.quiet ∧ (State.answer p r s).mir = s.mir ∧ (State.answer p r s).su = s.su ∧ (State.answer p r s).prof = s.prof ∧ (State.answer p r s).free = s.free := by
  unfold State.answer
  try dsimp only
  (repeat' split) <;> simp

@[simp] theorem State.take_frame (p : Port) (s : State) :
    (State.take p s).pending = s.pending ∧ (State.take p s).ports = s.ports ∧ (State.take p s).ctx = s.ctx ∧ (State.take p s).stg = s.stg ∧ (State.take p s).com = s.com ∧ (State.take p s).flash = s.flash ∧ (State.take p s).img = s.img ∧ (State.take p s).lock = s.lock ∧ (State.take p s).dram = s.dram ∧ (State.take p s).con = s.con ∧ (State.take p s).quiet = s.quiet ∧ (State.take p s).mir = s.mir ∧ (State.take p s).su = s.su ∧ (State.take p s).prof = s.prof ∧ (State.take p s).free = s.free := by
  unfold State.take
  try dsimp only
  (repeat' split) <;> simp

@[simp] theorem State.latchPayload_frame (p : Port) (s : State) :
    (State.latchPayload p s).pending = s.pending ∧ (State.latchPayload p s).ctx = s.ctx ∧ (State.latchPayload p s).stg = s.stg ∧ (State.latchPayload p s).com = s.com ∧ (State.latchPayload p s).flash = s.flash ∧ (State.latchPayload p s).img = s.img ∧ (State.latchPayload p s).lock = s.lock ∧ (State.latchPayload p s).dram = s.dram ∧ (State.latchPayload p s).pow = s.pow ∧ (State.latchPayload p s).con = s.con ∧ (State.latchPayload p s).quiet = s.quiet ∧ (State.latchPayload p s).mir = s.mir ∧ (State.latchPayload p s).su = s.su ∧ (State.latchPayload p s).prof = s.prof ∧ (State.latchPayload p s).free = s.free := by
  unfold State.latchPayload
  try dsimp only
  (repeat' split) <;> simp

@[simp] theorem State.refuseNow_frame (p : Port) (r : Reason) (s : State) :
    (State.refuseNow p r s).pending = s.pending ∧ (State.refuseNow p r s).ctx = s.ctx ∧ (State.refuseNow p r s).stg = s.stg ∧ (State.refuseNow p r s).com = s.com ∧ (State.refuseNow p r s).flash = s.flash ∧ (State.refuseNow p r s).img = s.img ∧ (State.refuseNow p r s).lock = s.lock ∧ (State.refuseNow p r s).dram = s.dram ∧ (State.refuseNow p r s).con = s.con ∧ (State.refuseNow p r s).quiet = s.quiet ∧ (State.refuseNow p r s).mir = s.mir ∧ (State.refuseNow p r s).su = s.su ∧ (State.refuseNow p r s).prof = s.prof ∧ (State.refuseNow p r s).free = s.free := by
  unfold State.refuseNow
  try dsimp only
  (repeat' split) <;> simp

@[simp] theorem State.setContext_frame (p : Port) (c : ClassId) (x : Option OpenCtx) (s : State) :
    (State.setContext p c x s).pending = s.pending ∧ (State.setContext p c x s).ports = s.ports ∧ (State.setContext p c x s).stg = s.stg ∧ (State.setContext p c x s).com = s.com ∧ (State.setContext p c x s).flash = s.flash ∧ (State.setContext p c x s).img = s.img ∧ (State.setContext p c x s).lock = s.lock ∧ (State.setContext p c x s).dram = s.dram ∧ (State.setContext p c x s).pow = s.pow ∧ (State.setContext p c x s).con = s.con ∧ (State.setContext p c x s).quiet = s.quiet ∧ (State.setContext p c x s).mir = s.mir ∧ (State.setContext p c x s).su = s.su ∧ (State.setContext p c x s).prof = s.prof ∧ (State.setContext p c x s).free = s.free := by
  unfold State.setContext
  try dsimp only
  (repeat' split) <;> simp

@[simp] theorem State.abandon_frame (p : Port) (c : ClassId) (cause : Nat) (s : State) :
    (State.abandon p c cause s).pending = s.pending ∧ (State.abandon p c cause s).ports = s.ports ∧ (State.abandon p c cause s).com = s.com ∧ (State.abandon p c cause s).flash = s.flash ∧ (State.abandon p c cause s).img = s.img ∧ (State.abandon p c cause s).lock = s.lock ∧ (State.abandon p c cause s).dram = s.dram ∧ (State.abandon p c cause s).pow = s.pow ∧ (State.abandon p c cause s).con = s.con ∧ (State.abandon p c cause s).quiet = s.quiet ∧ (State.abandon p c cause s).su = s.su ∧ (State.abandon p c cause s).prof = s.prof ∧ (State.abandon p c cause s).free = s.free := by
  unfold State.abandon
  try dsimp only
  (repeat' split) <;> simp

@[simp] theorem State.abandonPort_frame (p : Port) (cause : Nat) (s : State) :
    (State.abandonPort p cause s).pending = s.pending ∧ (State.abandonPort p cause s).ports = s.ports ∧ (State.abandonPort p cause s).com = s.com ∧ (State.abandonPort p cause s).flash = s.flash ∧ (State.abandonPort p cause s).img = s.img ∧ (State.abandonPort p cause s).lock = s.lock ∧ (State.abandonPort p cause s).dram = s.dram ∧ (State.abandonPort p cause s).pow = s.pow ∧ (State.abandonPort p cause s).con = s.con ∧ (State.abandonPort p cause s).quiet = s.quiet ∧ (State.abandonPort p cause s).su = s.su ∧ (State.abandonPort p cause s).prof = s.prof ∧ (State.abandonPort p cause s).free = s.free := by
  unfold State.abandonPort
  try dsimp only
  (repeat' split) <;> simp

@[simp] theorem State.loadTime_frame (t : Time) (s : State) :
    (State.loadTime t s).pending = s.pending ∧ (State.loadTime t s).ports = s.ports ∧ (State.loadTime t s).ctx = s.ctx ∧ (State.loadTime t s).stg = s.stg ∧ (State.loadTime t s).com = s.com ∧ (State.loadTime t s).flash = s.flash ∧ (State.loadTime t s).img = s.img ∧ (State.loadTime t s).lock = s.lock ∧ (State.loadTime t s).dram = s.dram ∧ (State.loadTime t s).con = s.con ∧ (State.loadTime t s).quiet = s.quiet ∧ (State.loadTime t s).su = s.su ∧ (State.loadTime t s).prof = s.prof ∧ (State.loadTime t s).free = s.free := by
  unfold State.loadTime
  try dsimp only
  (repeat' split) <;> simp

@[simp] theorem State.rearm_frame (s : State) :
    (State.rearm s).pending = s.pending ∧ (State.rearm s).ports = s.ports ∧ (State.rearm s).ctx = s.ctx ∧ (State.rearm s).stg = s.stg ∧ (State.rearm s).com = s.com ∧ (State.rearm s).flash = s.flash ∧ (State.rearm s).img = s.img ∧ (State.rearm s).lock = s.lock ∧ (State.rearm s).dram = s.dram ∧ (State.rearm s).pow = s.pow ∧ (State.rearm s).con = s.con ∧ (State.rearm s).su = s.su ∧ (State.rearm s).prof = s.prof ∧ (State.rearm s).free = s.free := by
  unfold State.rearm
  try dsimp only
  (repeat' split) <;> simp

@[simp] theorem State.rearmFor_frame (p : Port) (s : State) :
    (State.rearmFor p s).pending = s.pending ∧ (State.rearmFor p s).ports = s.ports ∧ (State.rearmFor p s).ctx = s.ctx ∧ (State.rearmFor p s).stg = s.stg ∧ (State.rearmFor p s).com = s.com ∧ (State.rearmFor p s).flash = s.flash ∧ (State.rearmFor p s).img = s.img ∧ (State.rearmFor p s).lock = s.lock ∧ (State.rearmFor p s).dram = s.dram ∧ (State.rearmFor p s).pow = s.pow ∧ (State.rearmFor p s).con = s.con ∧ (State.rearmFor p s).su = s.su ∧ (State.rearmFor p s).prof = s.prof ∧ (State.rearmFor p s).free = s.free := by
  unfold State.rearmFor
  try dsimp only
  (repeat' split) <;> simp

@[simp] theorem State.complete_frame (p : Port) (c : ClassId) (kind : Byte) (urgent : Bool) (payload : List Word) (s : State) :
    (State.complete p c kind urgent payload s).pending = s.pending ∧ (State.complete p c kind urgent payload s).ports = s.ports ∧ (State.complete p c kind urgent payload s).com = s.com ∧ (State.complete p c kind urgent payload s).flash = s.flash ∧ (State.complete p c kind urgent payload s).img = s.img ∧ (State.complete p c kind urgent payload s).lock = s.lock ∧ (State.complete p c kind urgent payload s).dram = s.dram ∧ (State.complete p c kind urgent payload s).con = s.con ∧ (State.complete p c kind urgent payload s).su = s.su ∧ (State.complete p c kind urgent payload s).prof = s.prof ∧ (State.complete p c kind urgent payload s).free = s.free := by
  unfold State.complete
  try dsimp only
  (repeat' split) <;> simp

@[simp] theorem State.openRecord_frame (p : Port) (c : ClassId) (whole : Bool) (w : Word) (s : State) :
    (State.openRecord p c whole w s).2.pending = s.pending ∧ (State.openRecord p c whole w s).2.ports = s.ports ∧ (State.openRecord p c whole w s).2.com = s.com ∧ (State.openRecord p c whole w s).2.flash = s.flash ∧ (State.openRecord p c whole w s).2.img = s.img ∧ (State.openRecord p c whole w s).2.lock = s.lock ∧ (State.openRecord p c whole w s).2.dram = s.dram ∧ (State.openRecord p c whole w s).2.con = s.con ∧ (State.openRecord p c whole w s).2.su = s.su ∧ (State.openRecord p c whole w s).2.prof = s.prof ∧ (State.openRecord p c whole w s).2.free = s.free := by
  unfold State.openRecord
  try dsimp only
  (repeat' split) <;> simp

@[simp] theorem State.putPayload_frame (p : Port) (c : ClassId) (k : Nat) (whole : Bool) (w : Word) (s : State) :
    (State.putPayload p c k whole w s).2.pending = s.pending ∧ (State.putPayload p c k whole w s).2.ports = s.ports ∧ (State.putPayload p c k whole w s).2.com = s.com ∧ (State.putPayload p c k whole w s).2.flash = s.flash ∧ (State.putPayload p c k whole w s).2.img = s.img ∧ (State.putPayload p c k whole w s).2.lock = s.lock ∧ (State.putPayload p c k whole w s).2.dram = s.dram ∧ (State.putPayload p c k whole w s).2.con = s.con ∧ (State.putPayload p c k whole w s).2.su = s.su ∧ (State.putPayload p c k whole w s).2.prof = s.prof ∧ (State.putPayload p c k whole w s).2.free = s.free := by
  unfold State.putPayload
  try dsimp only
  (repeat' split) <;> simp

@[simp] theorem State.journalWord_frame (p : Port) (c : ClassId) (k : Nat) (whole : Bool) (w : Word) (s : State) :
    (State.journalWord p c k whole w s).2.pending = s.pending ∧ (State.journalWord p c k whole w s).2.ports = s.ports ∧ (State.journalWord p c k whole w s).2.com = s.com ∧ (State.journalWord p c k whole w s).2.flash = s.flash ∧ (State.journalWord p c k whole w s).2.img = s.img ∧ (State.journalWord p c k whole w s).2.lock = s.lock ∧ (State.journalWord p c k whole w s).2.dram = s.dram ∧ (State.journalWord p c k whole w s).2.con = s.con ∧ (State.journalWord p c k whole w s).2.su = s.su ∧ (State.journalWord p c k whole w s).2.prof = s.prof ∧ (State.journalWord p c k whole w s).2.free = s.free := by
  unfold State.journalWord
  try dsimp only
  (repeat' split) <;> simp

@[simp] theorem State.noteStall_frame (s : State) :
    (State.noteStall s).pending = s.pending ∧ (State.noteStall s).ports = s.ports ∧ (State.noteStall s).ctx = s.ctx ∧ (State.noteStall s).flash = s.flash ∧ (State.noteStall s).img = s.img ∧ (State.noteStall s).lock = s.lock ∧ (State.noteStall s).dram = s.dram ∧ (State.noteStall s).pow = s.pow ∧ (State.noteStall s).con = s.con ∧ (State.noteStall s).quiet = s.quiet ∧ (State.noteStall s).su = s.su ∧ (State.noteStall s).prof = s.prof ∧ (State.noteStall s).free = s.free := by
  unfold State.noteStall
  try dsimp only
  (repeat' split) <;> simp

@[simp] theorem State.settle_frame (s : State) :
    (State.settle s).pending = s.pending ∧ (State.settle s).ports = s.ports ∧ (State.settle s).ctx = s.ctx ∧ (State.settle s).flash = s.flash ∧ (State.settle s).img = s.img ∧ (State.settle s).lock = s.lock ∧ (State.settle s).dram = s.dram ∧ (State.settle s).pow = s.pow ∧ (State.settle s).con = s.con ∧ (State.settle s).quiet = s.quiet ∧ (State.settle s).su = s.su ∧ (State.settle s).prof = s.prof ∧ (State.settle s).free = s.free := by
  unfold State.settle
  try dsimp only
  (repeat' split) <;> simp

@[simp] theorem State.offerPage_frame (s : State) :
    (State.offerPage s).pending = s.pending ∧ (State.offerPage s).ports = s.ports ∧ (State.offerPage s).ctx = s.ctx ∧ (State.offerPage s).stg = s.stg ∧ (State.offerPage s).com = s.com ∧ (State.offerPage s).flash.cells = s.flash.cells ∧ (State.offerPage s).img = s.img ∧ (State.offerPage s).lock = s.lock ∧ (State.offerPage s).dram = s.dram ∧ (State.offerPage s).pow = s.pow ∧ (State.offerPage s).con = s.con ∧ (State.offerPage s).quiet = s.quiet ∧ (State.offerPage s).mir = s.mir ∧ (State.offerPage s).su = s.su ∧ (State.offerPage s).prof = s.prof ∧ (State.offerPage s).free = s.free := by
  unfold State.offerPage
  try dsimp only
  (repeat' split) <;> simp

@[simp] theorem State.noteResume_frame (s : State) :
    (State.noteResume s).pending = s.pending ∧ (State.noteResume s).ports = s.ports ∧ (State.noteResume s).ctx = s.ctx ∧ (State.noteResume s).flash = s.flash ∧ (State.noteResume s).img = s.img ∧ (State.noteResume s).lock = s.lock ∧ (State.noteResume s).dram = s.dram ∧ (State.noteResume s).pow = s.pow ∧ (State.noteResume s).con = s.con ∧ (State.noteResume s).quiet = s.quiet ∧ (State.noteResume s).su = s.su ∧ (State.noteResume s).prof = s.prof ∧ (State.noteResume s).free = s.free := by
  unfold State.noteResume
  try dsimp only
  (repeat' split) <;> simp

@[simp] theorem State.confirmPage_frame (f : InFlight) (s : State) :
    (State.confirmPage f s).pending = s.pending ∧ (State.confirmPage f s).ports = s.ports ∧ (State.confirmPage f s).ctx = s.ctx ∧ (State.confirmPage f s).flash = s.flash ∧ (State.confirmPage f s).img = s.img ∧ (State.confirmPage f s).lock = s.lock ∧ (State.confirmPage f s).dram = s.dram ∧ (State.confirmPage f s).pow = s.pow ∧ (State.confirmPage f s).con = s.con ∧ (State.confirmPage f s).quiet = s.quiet ∧ (State.confirmPage f s).su = s.su ∧ (State.confirmPage f s).prof = s.prof ∧ (State.confirmPage f s).free = s.free := by
  unfold State.confirmPage
  try dsimp only
  (repeat' split) <;> simp

@[simp] theorem State.abandonBlock_frame (block : Nat) (s : State) :
    (State.abandonBlock block s).pending = s.pending ∧ (State.abandonBlock block s).ports = s.ports ∧ (State.abandonBlock block s).ctx = s.ctx ∧ (State.abandonBlock block s).flash = s.flash ∧ (State.abandonBlock block s).img = s.img ∧ (State.abandonBlock block s).lock = s.lock ∧ (State.abandonBlock block s).dram = s.dram ∧ (State.abandonBlock block s).pow = s.pow ∧ (State.abandonBlock block s).con = s.con ∧ (State.abandonBlock block s).quiet = s.quiet ∧ (State.abandonBlock block s).su = s.su ∧ (State.abandonBlock block s).prof = s.prof ∧ (State.abandonBlock block s).free = s.free := by
  unfold State.abandonBlock
  try dsimp only
  (repeat' split) <;> simp

@[simp] theorem State.failPage_frame (f : InFlight) (s : State) :
    (State.failPage f s).pending = s.pending ∧ (State.failPage f s).ports = s.ports ∧ (State.failPage f s).ctx = s.ctx ∧ (State.failPage f s).flash = s.flash ∧ (State.failPage f s).img = s.img ∧ (State.failPage f s).lock = s.lock ∧ (State.failPage f s).dram = s.dram ∧ (State.failPage f s).pow = s.pow ∧ (State.failPage f s).con = s.con ∧ (State.failPage f s).quiet = s.quiet ∧ (State.failPage f s).su = s.su ∧ (State.failPage f s).prof = s.prof ∧ (State.failPage f s).free = s.free := by
  unfold State.failPage
  try dsimp only
  (repeat' split) <;> simp

@[simp] theorem State.upkeepFailed_frame (block : Nat) (s : State) :
    (State.upkeepFailed block s).pending = s.pending ∧ (State.upkeepFailed block s).ports = s.ports ∧ (State.upkeepFailed block s).ctx = s.ctx ∧ (State.upkeepFailed block s).flash = s.flash ∧ (State.upkeepFailed block s).img = s.img ∧ (State.upkeepFailed block s).lock = s.lock ∧ (State.upkeepFailed block s).dram = s.dram ∧ (State.upkeepFailed block s).pow = s.pow ∧ (State.upkeepFailed block s).con = s.con ∧ (State.upkeepFailed block s).quiet = s.quiet ∧ (State.upkeepFailed block s).su = s.su ∧ (State.upkeepFailed block s).prof = s.prof ∧ (State.upkeepFailed block s).free = s.free := by
  unfold State.upkeepFailed
  try dsimp only
  (repeat' split) <;> simp

@[simp] theorem State.upkeepJoined_frame (s : State) :
    (State.upkeepJoined s).pending = s.pending ∧ (State.upkeepJoined s).ports = s.ports ∧ (State.upkeepJoined s).ctx = s.ctx ∧ (State.upkeepJoined s).stg = s.stg ∧ (State.upkeepJoined s).flash.cells = s.flash.cells ∧ (State.upkeepJoined s).img = s.img ∧ (State.upkeepJoined s).lock = s.lock ∧ (State.upkeepJoined s).dram = s.dram ∧ (State.upkeepJoined s).pow = s.pow ∧ (State.upkeepJoined s).con = s.con ∧ (State.upkeepJoined s).quiet = s.quiet ∧ (State.upkeepJoined s).su = s.su ∧ (State.upkeepJoined s).prof = s.prof ∧ (State.upkeepJoined s).free = s.free := by
  unfold State.upkeepJoined
  try dsimp only
  (repeat' split) <;> simp

@[simp] theorem State.upkeepHeader_frame (ws : List Word) (s : State) :
    (State.upkeepHeader ws s).pending = s.pending ∧ (State.upkeepHeader ws s).ports = s.ports ∧ (State.upkeepHeader ws s).ctx = s.ctx ∧ (State.upkeepHeader ws s).stg = s.stg ∧ (State.upkeepHeader ws s).flash = s.flash ∧ (State.upkeepHeader ws s).img = s.img ∧ (State.upkeepHeader ws s).lock = s.lock ∧ (State.upkeepHeader ws s).dram = s.dram ∧ (State.upkeepHeader ws s).pow = s.pow ∧ (State.upkeepHeader ws s).con = s.con ∧ (State.upkeepHeader ws s).quiet = s.quiet ∧ (State.upkeepHeader ws s).su = s.su ∧ (State.upkeepHeader ws s).prof = s.prof ∧ (State.upkeepHeader ws s).free = s.free := by
  unfold State.upkeepHeader
  try dsimp only
  (repeat' split) <;> simp

@[simp] theorem Flash.askSuspend_cells (f : Flash) : f.askSuspend.cells = f.cells := by
  unfold Flash.askSuspend; (repeat' split) <;> rfl
@[simp] theorem Flash.finish_cells (f : Flash) : f.finish.cells = f.cells := by
  unfold Flash.finish; (repeat' split) <;> simp
@[simp] theorem Image.stored_burn (m : Image) (i l) : (m.stored i l).burn = m.burn := by
  unfold Image.stored; (repeat' split) <;> rfl
@[simp] theorem State.offerPortRead_frame (p : Port) (word len : Nat) (s : State) :
    (State.offerPortRead p word len s).pending = s.pending ∧ (State.offerPortRead p word len s).ctx = s.ctx ∧ (State.offerPortRead p word len s).stg = s.stg ∧ (State.offerPortRead p word len s).com = s.com ∧ (State.offerPortRead p word len s).flash.cells = s.flash.cells ∧ (State.offerPortRead p word len s).img = s.img ∧ (State.offerPortRead p word len s).lock = s.lock ∧ (State.offerPortRead p word len s).dram = s.dram ∧ (State.offerPortRead p word len s).pow = s.pow ∧ (State.offerPortRead p word len s).con = s.con ∧ (State.offerPortRead p word len s).quiet = s.quiet ∧ (State.offerPortRead p word len s).mir = s.mir ∧ (State.offerPortRead p word len s).su = s.su ∧ (State.offerPortRead p word len s).prof = s.prof ∧ (State.offerPortRead p word len s).free = s.free := by
  unfold State.offerPortRead
  try dsimp only
  (repeat' split) <;> simp

@[simp] theorem State.finishJob_frame (s : State) :
    (State.finishJob s).pending = s.pending ∧ (State.finishJob s).ports = s.ports ∧ (State.finishJob s).ctx = s.ctx ∧ (State.finishJob s).stg = s.stg ∧ (State.finishJob s).com = s.com ∧ (State.finishJob s).flash.cells = s.flash.cells ∧ (State.finishJob s).img = s.img ∧ (State.finishJob s).lock = s.lock ∧ (State.finishJob s).dram = s.dram ∧ (State.finishJob s).pow = s.pow ∧ (State.finishJob s).con = s.con ∧ (State.finishJob s).quiet = s.quiet ∧ (State.finishJob s).mir = s.mir ∧ (State.finishJob s).su = s.su ∧ (State.finishJob s).prof = s.prof ∧ (State.finishJob s).free = s.free := by
  unfold State.finishJob
  try dsimp only
  (repeat' split) <;> simp

@[simp] theorem State.leaveErase_frame (block : Nat) (s : State) :
    (State.leaveErase block s).pending = s.pending ∧ (State.leaveErase block s).ports = s.ports ∧ (State.leaveErase block s).ctx = s.ctx ∧ (State.leaveErase block s).stg = s.stg ∧ (State.leaveErase block s).com = s.com ∧ (State.leaveErase block s).img = s.img ∧ (State.leaveErase block s).lock = s.lock ∧ (State.leaveErase block s).dram = s.dram ∧ (State.leaveErase block s).pow = s.pow ∧ (State.leaveErase block s).con = s.con ∧ (State.leaveErase block s).quiet = s.quiet ∧ (State.leaveErase block s).mir = s.mir ∧ (State.leaveErase block s).su = s.su ∧ (State.leaveErase block s).prof = s.prof := by
  unfold State.leaveErase
  try dsimp only
  (repeat' split) <;> simp

@[simp] theorem State.leaveTorn_frame (block page : Nat) (words : List Word) (s : State) :
    (State.leaveTorn block page words s).pending = s.pending ∧ (State.leaveTorn block page words s).ports = s.ports ∧ (State.leaveTorn block page words s).ctx = s.ctx ∧ (State.leaveTorn block page words s).stg = s.stg ∧ (State.leaveTorn block page words s).com = s.com ∧ (State.leaveTorn block page words s).img = s.img ∧ (State.leaveTorn block page words s).lock = s.lock ∧ (State.leaveTorn block page words s).dram = s.dram ∧ (State.leaveTorn block page words s).pow = s.pow ∧ (State.leaveTorn block page words s).con = s.con ∧ (State.leaveTorn block page words s).quiet = s.quiet ∧ (State.leaveTorn block page words s).mir = s.mir ∧ (State.leaveTorn block page words s).su = s.su ∧ (State.leaveTorn block page words s).prof = s.prof := by
  unfold State.leaveTorn
  try dsimp only
  (repeat' split) <;> simp

@[simp] theorem State.cutOff_frame (j : Job) (s : State) :
    (State.cutOff j s).pending = s.pending ∧ (State.cutOff j s).ports = s.ports ∧ (State.cutOff j s).ctx = s.ctx ∧ (State.cutOff j s).stg = s.stg ∧ (State.cutOff j s).com = s.com ∧ (State.cutOff j s).img = s.img ∧ (State.cutOff j s).lock = s.lock ∧ (State.cutOff j s).dram = s.dram ∧ (State.cutOff j s).pow = s.pow ∧ (State.cutOff j s).con = s.con ∧ (State.cutOff j s).quiet = s.quiet ∧ (State.cutOff j s).mir = s.mir ∧ (State.cutOff j s).su = s.su ∧ (State.cutOff j s).prof = s.prof := by
  unfold State.cutOff
  try dsimp only
  (repeat' split) <;> simp

@[simp] theorem State.cutOffAll_frame (s : State) :
    (State.cutOffAll s).pending = s.pending ∧ (State.cutOffAll s).ports = s.ports ∧ (State.cutOffAll s).ctx = s.ctx ∧ (State.cutOffAll s).stg = s.stg ∧ (State.cutOffAll s).com = s.com ∧ (State.cutOffAll s).img = s.img ∧ (State.cutOffAll s).lock = s.lock ∧ (State.cutOffAll s).dram = s.dram ∧ (State.cutOffAll s).pow = s.pow ∧ (State.cutOffAll s).con = s.con ∧ (State.cutOffAll s).quiet = s.quiet ∧ (State.cutOffAll s).mir = s.mir ∧ (State.cutOffAll s).su = s.su ∧ (State.cutOffAll s).prof = s.prof := by
  unfold State.cutOffAll
  try dsimp only
  (repeat' split) <;> simp

@[simp] theorem State.abortErase_frame (s : State) :
    (State.abortErase s).pending = s.pending ∧ (State.abortErase s).ports = s.ports ∧ (State.abortErase s).ctx = s.ctx ∧ (State.abortErase s).stg = s.stg ∧ (State.abortErase s).com = s.com ∧ (State.abortErase s).flash.cells = s.flash.cells ∧ (State.abortErase s).img = s.img ∧ (State.abortErase s).lock = s.lock ∧ (State.abortErase s).dram = s.dram ∧ (State.abortErase s).pow = s.pow ∧ (State.abortErase s).con = s.con ∧ (State.abortErase s).quiet = s.quiet ∧ (State.abortErase s).mir = s.mir ∧ (State.abortErase s).su = s.su ∧ (State.abortErase s).prof = s.prof ∧ (State.abortErase s).free = s.free := by
  unfold State.abortErase
  try dsimp only
  (repeat' split) <;> simp

@[simp] theorem State.takeImage_frame (p : Port) (s : State) :
    (State.takeImage p s).pending = s.pending ∧ (State.takeImage p s).ports = s.ports ∧ (State.takeImage p s).ctx = s.ctx ∧ (State.takeImage p s).stg = s.stg ∧ (State.takeImage p s).com = s.com ∧ (State.takeImage p s).flash = s.flash ∧ (State.takeImage p s).img.burn = s.img.burn ∧ (State.takeImage p s).lock = s.lock ∧ (State.takeImage p s).dram = s.dram ∧ (State.takeImage p s).con = s.con ∧ (State.takeImage p s).quiet = s.quiet ∧ (State.takeImage p s).mir = s.mir ∧ (State.takeImage p s).su = s.su ∧ (State.takeImage p s).prof = s.prof ∧ (State.takeImage p s).free = s.free := by
  unfold State.takeImage
  try dsimp only
  (repeat' split) <;> simp

@[simp] theorem State.waitImage_frame (p : Port) (s : State) :
    (State.waitImage p s).pending = s.pending ∧ (State.waitImage p s).ctx = s.ctx ∧ (State.waitImage p s).stg = s.stg ∧ (State.waitImage p s).com = s.com ∧ (State.waitImage p s).flash = s.flash ∧ (State.waitImage p s).img.burn = s.img.burn ∧ (State.waitImage p s).lock = s.lock ∧ (State.waitImage p s).dram = s.dram ∧ (State.waitImage p s).con = s.con ∧ (State.waitImage p s).quiet = s.quiet ∧ (State.waitImage p s).mir = s.mir ∧ (State.waitImage p s).su = s.su ∧ (State.waitImage p s).prof = s.prof ∧ (State.waitImage p s).free = s.free := by
  unfold State.waitImage
  try dsimp only
  (repeat' split) <;> simp

@[simp] theorem State.startStore_frame (p : Port) (i : SlotId) (word : Nat) (s : State) :
    (State.startStore p i word s).pending = s.pending ∧ (State.startStore p i word s).ctx = s.ctx ∧ (State.startStore p i word s).stg = s.stg ∧ (State.startStore p i word s).com = s.com ∧ (State.startStore p i word s).flash = s.flash ∧ (State.startStore p i word s).img = s.img ∧ (State.startStore p i word s).lock = s.lock ∧ (State.startStore p i word s).dram.cells = s.dram.cells ∧ (State.startStore p i word s).dram.rows = s.dram.rows ∧ (State.startStore p i word s).pow = s.pow ∧ (State.startStore p i word s).con = s.con ∧ (State.startStore p i word s).quiet = s.quiet ∧ (State.startStore p i word s).mir = s.mir ∧ (State.startStore p i word s).su = s.su ∧ (State.startStore p i word s).prof = s.prof ∧ (State.startStore p i word s).free = s.free := by
  unfold State.startStore
  try dsimp only
  (repeat' split) <;> simp

@[simp] theorem State.startFill_frame (p : Port) (i : SlotId) (b : Nat) (s : State) :
    (State.startFill p i b s).pending = s.pending ∧ (State.startFill p i b s).ctx = s.ctx ∧ (State.startFill p i b s).stg = s.stg ∧ (State.startFill p i b s).com = s.com ∧ (State.startFill p i b s).flash = s.flash ∧ (State.startFill p i b s).img.burn = s.img.burn ∧ (State.startFill p i b s).lock = s.lock ∧ (State.startFill p i b s).dram.cells = s.dram.cells ∧ (State.startFill p i b s).dram.rows = s.dram.rows ∧ (State.startFill p i b s).pow = s.pow ∧ (State.startFill p i b s).con = s.con ∧ (State.startFill p i b s).quiet = s.quiet ∧ (State.startFill p i b s).mir = s.mir ∧ (State.startFill p i b s).su = s.su ∧ (State.startFill p i b s).prof = s.prof ∧ (State.startFill p i b s).free = s.free := by
  unfold State.startFill
  try dsimp only
  (repeat' split) <;> simp

@[simp] theorem State.imageWriteAt_frame (p : Port) (b word : Nat) (s : State) :
    (State.imageWriteAt p b word s).pending = s.pending ∧ (State.imageWriteAt p b word s).ctx = s.ctx ∧ (State.imageWriteAt p b word s).stg = s.stg ∧ (State.imageWriteAt p b word s).com = s.com ∧ (State.imageWriteAt p b word s).flash = s.flash ∧ (State.imageWriteAt p b word s).img.burn = s.img.burn ∧ (State.imageWriteAt p b word s).lock = s.lock ∧ (State.imageWriteAt p b word s).dram.cells = s.dram.cells ∧ (State.imageWriteAt p b word s).dram.rows = s.dram.rows ∧ (State.imageWriteAt p b word s).pow = s.pow ∧ (State.imageWriteAt p b word s).con = s.con ∧ (State.imageWriteAt p b word s).quiet = s.quiet ∧ (State.imageWriteAt p b word s).mir = s.mir ∧ (State.imageWriteAt p b word s).su = s.su ∧ (State.imageWriteAt p b word s).prof = s.prof ∧ (State.imageWriteAt p b word s).free = s.free := by
  unfold State.imageWriteAt
  try dsimp only
  (repeat' split) <;> simp

@[simp] theorem State.imageReadAt_frame (p : Port) (b word len : Nat) (s : State) :
    (State.imageReadAt p b word len s).pending = s.pending ∧ (State.imageReadAt p b word len s).ctx = s.ctx ∧ (State.imageReadAt p b word len s).stg = s.stg ∧ (State.imageReadAt p b word len s).com = s.com ∧ (State.imageReadAt p b word len s).flash.cells = s.flash.cells ∧ (State.imageReadAt p b word len s).img = s.img ∧ (State.imageReadAt p b word len s).lock = s.lock ∧ (State.imageReadAt p b word len s).dram.cells = s.dram.cells ∧ (State.imageReadAt p b word len s).dram.rows = s.dram.rows ∧ (State.imageReadAt p b word len s).pow = s.pow ∧ (State.imageReadAt p b word len s).con = s.con ∧ (State.imageReadAt p b word len s).quiet = s.quiet ∧ (State.imageReadAt p b word len s).mir = s.mir ∧ (State.imageReadAt p b word len s).su = s.su ∧ (State.imageReadAt p b word len s).prof = s.prof ∧ (State.imageReadAt p b word len s).free = s.free := by
  unfold State.imageReadAt
  try dsimp only
  (repeat' split) <;> simp

@[simp] theorem State.storeEnd_frame (p : Port) (i : SlotId) (q : DramReq) (s : State) :
    (State.storeEnd p i q s).pending = s.pending ∧ (State.storeEnd p i q s).ctx = s.ctx ∧ (State.storeEnd p i q s).com = s.com ∧ (State.storeEnd p i q s).flash = s.flash ∧ (State.storeEnd p i q s).img.burn = s.img.burn ∧ (State.storeEnd p i q s).lock = s.lock ∧ (State.storeEnd p i q s).pow = s.pow ∧ (State.storeEnd p i q s).con = s.con ∧ (State.storeEnd p i q s).quiet = s.quiet ∧ (State.storeEnd p i q s).su = s.su ∧ (State.storeEnd p i q s).prof = s.prof ∧ (State.storeEnd p i q s).free = s.free := by
  unfold State.storeEnd
  try dsimp only
  (repeat' split) <;> simp

@[simp] theorem State.burnResult_frame (i : SlotId) (block code : Nat) (sum : Sum16) (s : State) :
    (State.burnResult i block code sum s).pending = s.pending ∧ (State.burnResult i block code sum s).ports = s.ports ∧ (State.burnResult i block code sum s).ctx = s.ctx ∧ (State.burnResult i block code sum s).com = s.com ∧ (State.burnResult i block code sum s).flash = s.flash ∧ (State.burnResult i block code sum s).img.burn = s.img.burn ∧ (State.burnResult i block code sum s).lock = s.lock ∧ (State.burnResult i block code sum s).dram = s.dram ∧ (State.burnResult i block code sum s).pow = s.pow ∧ (State.burnResult i block code sum s).con = s.con ∧ (State.burnResult i block code sum s).quiet = s.quiet ∧ (State.burnResult i block code sum s).su = s.su ∧ (State.burnResult i block code sum s).prof = s.prof ∧ (State.burnResult i block code sum s).free = s.free := by
  unfold State.burnResult
  try dsimp only
  (repeat' split) <;> simp

@[simp] theorem State.burnEnd_frame (b : Burn) (code : Nat) (sum : Sum16) (s : State) :
    (State.burnEnd b code sum s).pending = s.pending ∧ (State.burnEnd b code sum s).ports = s.ports ∧ (State.burnEnd b code sum s).ctx = s.ctx ∧ (State.burnEnd b code sum s).com = s.com ∧ (State.burnEnd b code sum s).flash = s.flash ∧ (State.burnEnd b code sum s).lock = s.lock ∧ (State.burnEnd b code sum s).dram = s.dram ∧ (State.burnEnd b code sum s).pow = s.pow ∧ (State.burnEnd b code sum s).con = s.con ∧ (State.burnEnd b code sum s).quiet = s.quiet ∧ (State.burnEnd b code sum s).su = s.su ∧ (State.burnEnd b code sum s).prof = s.prof ∧ (State.burnEnd b code sum s).free = s.free := by
  unfold State.burnEnd
  try dsimp only
  (repeat' split) <;> simp

@[simp] theorem State.offerBurnJob_frame (b : Burn) (j : Job) (s : State) :
    (State.offerBurnJob b j s).pending = s.pending ∧ (State.offerBurnJob b j s).ports = s.ports ∧ (State.offerBurnJob b j s).ctx = s.ctx ∧ (State.offerBurnJob b j s).stg = s.stg ∧ (State.offerBurnJob b j s).com = s.com ∧ (State.offerBurnJob b j s).flash.cells = s.flash.cells ∧ (State.offerBurnJob b j s).lock = s.lock ∧ (State.offerBurnJob b j s).dram = s.dram ∧ (State.offerBurnJob b j s).pow = s.pow ∧ (State.offerBurnJob b j s).con = s.con ∧ (State.offerBurnJob b j s).quiet = s.quiet ∧ (State.offerBurnJob b j s).mir = s.mir ∧ (State.offerBurnJob b j s).su = s.su ∧ (State.offerBurnJob b j s).prof = s.prof ∧ (State.offerBurnJob b j s).free = s.free := by
  unfold State.offerBurnJob
  try dsimp only
  (repeat' split) <;> simp

@[simp] theorem State.startReading_frame (b : Burn) (s : State) :
    (State.startReading b s).pending = s.pending ∧ (State.startReading b s).ports = s.ports ∧ (State.startReading b s).ctx = s.ctx ∧ (State.startReading b s).stg = s.stg ∧ (State.startReading b s).com = s.com ∧ (State.startReading b s).flash = s.flash ∧ (State.startReading b s).lock = s.lock ∧ (State.startReading b s).dram.cells = s.dram.cells ∧ (State.startReading b s).dram.rows = s.dram.rows ∧ (State.startReading b s).pow = s.pow ∧ (State.startReading b s).con = s.con ∧ (State.startReading b s).quiet = s.quiet ∧ (State.startReading b s).mir = s.mir ∧ (State.startReading b s).su = s.su ∧ (State.startReading b s).prof = s.prof ∧ (State.startReading b s).free = s.free := by
  unfold State.startReading
  try dsimp only
  (repeat' split) <;> simp

@[simp] theorem State.startFetch_frame (b : Burn) (page : Nat) (s : State) :
    (State.startFetch b page s).pending = s.pending ∧ (State.startFetch b page s).ports = s.ports ∧ (State.startFetch b page s).ctx = s.ctx ∧ (State.startFetch b page s).stg = s.stg ∧ (State.startFetch b page s).com = s.com ∧ (State.startFetch b page s).flash = s.flash ∧ (State.startFetch b page s).lock = s.lock ∧ (State.startFetch b page s).dram.cells = s.dram.cells ∧ (State.startFetch b page s).dram.rows = s.dram.rows ∧ (State.startFetch b page s).pow = s.pow ∧ (State.startFetch b page s).con = s.con ∧ (State.startFetch b page s).quiet = s.quiet ∧ (State.startFetch b page s).mir = s.mir ∧ (State.startFetch b page s).su = s.su ∧ (State.startFetch b page s).prof = s.prof ∧ (State.startFetch b page s).free = s.free := by
  unfold State.startFetch
  try dsimp only
  (repeat' split) <;> simp

@[simp] theorem State.burnOffer_frame (b : Burn) (s : State) :
    (State.burnOffer b s).pending = s.pending ∧ (State.burnOffer b s).ports = s.ports ∧ (State.burnOffer b s).ctx = s.ctx ∧ (State.burnOffer b s).stg = s.stg ∧ (State.burnOffer b s).com = s.com ∧ (State.burnOffer b s).flash.cells = s.flash.cells ∧ (State.burnOffer b s).lock = s.lock ∧ (State.burnOffer b s).dram.cells = s.dram.cells ∧ (State.burnOffer b s).dram.rows = s.dram.rows ∧ (State.burnOffer b s).pow = s.pow ∧ (State.burnOffer b s).con = s.con ∧ (State.burnOffer b s).quiet = s.quiet ∧ (State.burnOffer b s).mir = s.mir ∧ (State.burnOffer b s).su = s.su ∧ (State.burnOffer b s).prof = s.prof ∧ (State.burnOffer b s).free = s.free := by
  unfold State.burnOffer
  try dsimp only
  (repeat' split) <;> simp

@[simp] theorem State.burnNext_frame (b : Burn) (s : State) :
    (State.burnNext b s).pending = s.pending ∧ (State.burnNext b s).ports = s.ports ∧ (State.burnNext b s).ctx = s.ctx ∧ (State.burnNext b s).stg = s.stg ∧ (State.burnNext b s).com = s.com ∧ (State.burnNext b s).flash.cells = s.flash.cells ∧ (State.burnNext b s).lock = s.lock ∧ (State.burnNext b s).dram.cells = s.dram.cells ∧ (State.burnNext b s).dram.rows = s.dram.rows ∧ (State.burnNext b s).pow = s.pow ∧ (State.burnNext b s).con = s.con ∧ (State.burnNext b s).quiet = s.quiet ∧ (State.burnNext b s).mir = s.mir ∧ (State.burnNext b s).su = s.su ∧ (State.burnNext b s).prof = s.prof ∧ (State.burnNext b s).free = s.free := by
  unfold State.burnNext
  try dsimp only
  (repeat' split) <;> simp

@[simp] theorem State.resumeBurn_frame (s : State) :
    (State.resumeBurn s).pending = s.pending ∧ (State.resumeBurn s).ports = s.ports ∧ (State.resumeBurn s).ctx = s.ctx ∧ (State.resumeBurn s).stg = s.stg ∧ (State.resumeBurn s).com = s.com ∧ (State.resumeBurn s).flash.cells = s.flash.cells ∧ (State.resumeBurn s).lock = s.lock ∧ (State.resumeBurn s).dram.cells = s.dram.cells ∧ (State.resumeBurn s).dram.rows = s.dram.rows ∧ (State.resumeBurn s).pow = s.pow ∧ (State.resumeBurn s).con = s.con ∧ (State.resumeBurn s).quiet = s.quiet ∧ (State.resumeBurn s).mir = s.mir ∧ (State.resumeBurn s).su = s.su ∧ (State.resumeBurn s).prof = s.prof ∧ (State.resumeBurn s).free = s.free := by
  unfold State.resumeBurn
  try dsimp only
  (repeat' split) <;> simp

@[simp] theorem State.burnStep2_frame (b : Burn) (words : List Word) (s : State) :
    (State.burnStep2 b words s).pending = s.pending ∧ (State.burnStep2 b words s).ports = s.ports ∧ (State.burnStep2 b words s).ctx = s.ctx ∧ (State.burnStep2 b words s).com = s.com ∧ (State.burnStep2 b words s).flash.cells = s.flash.cells ∧ (State.burnStep2 b words s).lock = s.lock ∧ (State.burnStep2 b words s).dram.cells = s.dram.cells ∧ (State.burnStep2 b words s).dram.rows = s.dram.rows ∧ (State.burnStep2 b words s).pow = s.pow ∧ (State.burnStep2 b words s).con = s.con ∧ (State.burnStep2 b words s).quiet = s.quiet ∧ (State.burnStep2 b words s).su = s.su ∧ (State.burnStep2 b words s).prof = s.prof ∧ (State.burnStep2 b words s).free = s.free := by
  unfold State.burnStep2
  try dsimp only
  (repeat' split) <;> simp

@[simp] theorem State.burnRead_frame (b : Burn) (words : List Word) (s : State) :
    (State.burnRead b words s).pending = s.pending ∧ (State.burnRead b words s).ports = s.ports ∧ (State.burnRead b words s).ctx = s.ctx ∧ (State.burnRead b words s).com = s.com ∧ (State.burnRead b words s).flash.cells = s.flash.cells ∧ (State.burnRead b words s).lock = s.lock ∧ (State.burnRead b words s).dram.cells = s.dram.cells ∧ (State.burnRead b words s).dram.rows = s.dram.rows ∧ (State.burnRead b words s).pow = s.pow ∧ (State.burnRead b words s).con = s.con ∧ (State.burnRead b words s).quiet = s.quiet ∧ (State.burnRead b words s).su = s.su ∧ (State.burnRead b words s).prof = s.prof ∧ (State.burnRead b words s).free = s.free := by
  unfold State.burnRead
  try dsimp only
  (repeat' split) <;> simp

@[simp] theorem State.burnBlanked_frame (b : Burn) (blank : Bool) (s : State) :
    (State.burnBlanked b blank s).pending = s.pending ∧ (State.burnBlanked b blank s).ports = s.ports ∧ (State.burnBlanked b blank s).ctx = s.ctx ∧ (State.burnBlanked b blank s).com = s.com ∧ (State.burnBlanked b blank s).flash.cells = s.flash.cells ∧ (State.burnBlanked b blank s).lock = s.lock ∧ (State.burnBlanked b blank s).dram.cells = s.dram.cells ∧ (State.burnBlanked b blank s).dram.rows = s.dram.rows ∧ (State.burnBlanked b blank s).pow = s.pow ∧ (State.burnBlanked b blank s).con = s.con ∧ (State.burnBlanked b blank s).quiet = s.quiet ∧ (State.burnBlanked b blank s).su = s.su ∧ (State.burnBlanked b blank s).prof = s.prof ∧ (State.burnBlanked b blank s).free = s.free := by
  unfold State.burnBlanked
  try dsimp only
  (repeat' split) <;> simp

@[simp] theorem State.burnProgrammed_frame (b : Burn) (s : State) :
    (State.burnProgrammed b s).pending = s.pending ∧ (State.burnProgrammed b s).ports = s.ports ∧ (State.burnProgrammed b s).ctx = s.ctx ∧ (State.burnProgrammed b s).stg = s.stg ∧ (State.burnProgrammed b s).com = s.com ∧ (State.burnProgrammed b s).flash.cells = s.flash.cells ∧ (State.burnProgrammed b s).lock = s.lock ∧ (State.burnProgrammed b s).dram.cells = s.dram.cells ∧ (State.burnProgrammed b s).dram.rows = s.dram.rows ∧ (State.burnProgrammed b s).pow = s.pow ∧ (State.burnProgrammed b s).con = s.con ∧ (State.burnProgrammed b s).quiet = s.quiet ∧ (State.burnProgrammed b s).mir = s.mir ∧ (State.burnProgrammed b s).su = s.su ∧ (State.burnProgrammed b s).prof = s.prof ∧ (State.burnProgrammed b s).free = s.free := by
  unfold State.burnProgrammed
  try dsimp only
  (repeat' split) <;> simp

@[simp] theorem State.burnStep7_frame (b : Burn) (s : State) :
    (State.burnStep7 b s).pending = s.pending ∧ (State.burnStep7 b s).ports = s.ports ∧ (State.burnStep7 b s).ctx = s.ctx ∧ (State.burnStep7 b s).stg = s.stg ∧ (State.burnStep7 b s).com = s.com ∧ (State.burnStep7 b s).flash = s.flash ∧ (State.burnStep7 b s).img = s.img ∧ (State.burnStep7 b s).dram = s.dram ∧ (State.burnStep7 b s).pow = s.pow ∧ (State.burnStep7 b s).con = s.con ∧ (State.burnStep7 b s).quiet = s.quiet ∧ (State.burnStep7 b s).prof = s.prof ∧ (State.burnStep7 b s).free = s.free := by
  unfold State.burnStep7
  try dsimp only
  (repeat' split) <;> simp

@[simp] theorem State.burnVerified_frame (b : Burn) (matched : Bool) (sum : Sum16) (s : State) :
    (State.burnVerified b matched sum s).pending = s.pending ∧ (State.burnVerified b matched sum s).ports = s.ports ∧ (State.burnVerified b matched sum s).ctx = s.ctx ∧ (State.burnVerified b matched sum s).com = s.com ∧ (State.burnVerified b matched sum s).flash.cells = s.flash.cells ∧ (State.burnVerified b matched sum s).dram.cells = s.dram.cells ∧ (State.burnVerified b matched sum s).dram.rows = s.dram.rows ∧ (State.burnVerified b matched sum s).pow = s.pow ∧ (State.burnVerified b matched sum s).con = s.con ∧ (State.burnVerified b matched sum s).quiet = s.quiet ∧ (State.burnVerified b matched sum s).prof = s.prof ∧ (State.burnVerified b matched sum s).free = s.free := by
  unfold State.burnVerified
  try dsimp only
  (repeat' split) <;> simp

@[simp] theorem State.burnRequeue_frame (b : Burn) (s : State) :
    (State.burnRequeue b s).pending = s.pending ∧ (State.burnRequeue b s).ports = s.ports ∧ (State.burnRequeue b s).ctx = s.ctx ∧ (State.burnRequeue b s).stg = s.stg ∧ (State.burnRequeue b s).com = s.com ∧ (State.burnRequeue b s).flash.cells = s.flash.cells ∧ (State.burnRequeue b s).lock = s.lock ∧ (State.burnRequeue b s).dram.cells = s.dram.cells ∧ (State.burnRequeue b s).dram.rows = s.dram.rows ∧ (State.burnRequeue b s).pow = s.pow ∧ (State.burnRequeue b s).con = s.con ∧ (State.burnRequeue b s).quiet = s.quiet ∧ (State.burnRequeue b s).mir = s.mir ∧ (State.burnRequeue b s).su = s.su ∧ (State.burnRequeue b s).prof = s.prof ∧ (State.burnRequeue b s).free = s.free := by
  unfold State.burnRequeue
  try dsimp only
  (repeat' split) <;> simp

@[simp] theorem State.stopBurn_frame (s : State) :
    (State.stopBurn s).pending = s.pending ∧ (State.stopBurn s).ports = s.ports ∧ (State.stopBurn s).ctx = s.ctx ∧ (State.stopBurn s).stg = s.stg ∧ (State.stopBurn s).com = s.com ∧ (State.stopBurn s).flash.cells = s.flash.cells ∧ (State.stopBurn s).lock = s.lock ∧ (State.stopBurn s).dram.cells = s.dram.cells ∧ (State.stopBurn s).dram.rows = s.dram.rows ∧ (State.stopBurn s).pow = s.pow ∧ (State.stopBurn s).con = s.con ∧ (State.stopBurn s).quiet = s.quiet ∧ (State.stopBurn s).mir = s.mir ∧ (State.stopBurn s).su = s.su ∧ (State.stopBurn s).prof = s.prof ∧ (State.stopBurn s).free = s.free := by
  unfold State.stopBurn State.awaitAborted
  try dsimp only
  (repeat' split) <;> simp

@[simp] theorem State.setPower_frame (p : PowerState) (s : State) :
    (State.setPower p s).pending = s.pending ∧ (State.setPower p s).ports = s.ports ∧ (State.setPower p s).ctx = s.ctx ∧ (State.setPower p s).stg = s.stg ∧ (State.setPower p s).com = s.com ∧ (State.setPower p s).flash = s.flash ∧ (State.setPower p s).img = s.img ∧ (State.setPower p s).lock = s.lock ∧ (State.setPower p s).dram = s.dram ∧ (State.setPower p s).con = s.con ∧ (State.setPower p s).quiet = s.quiet ∧ (State.setPower p s).su = s.su ∧ (State.setPower p s).prof = s.prof ∧ (State.setPower p s).free = s.free := by
  unfold State.setPower
  try dsimp only
  (repeat' split) <;> simp

@[simp] theorem State.enterSettling_frame (s : State) :
    (State.enterSettling s).pending = s.pending ∧ (State.enterSettling s).flash = s.flash ∧ (State.enterSettling s).img = s.img ∧ (State.enterSettling s).lock = s.lock ∧ (State.enterSettling s).dram = s.dram ∧ (State.enterSettling s).con = s.con ∧ (State.enterSettling s).su = s.su ∧ (State.enterSettling s).prof = s.prof ∧ (State.enterSettling s).free = s.free := by
  unfold State.enterSettling
  try dsimp only
  (repeat' split) <;> simp

@[simp] theorem State.enterRoused_frame (s : State) :
    (State.enterRoused s).pending = s.pending ∧ (State.enterRoused s).ports = s.ports ∧ (State.enterRoused s).ctx = s.ctx ∧ (State.enterRoused s).flash = s.flash ∧ (State.enterRoused s).img = s.img ∧ (State.enterRoused s).lock = s.lock ∧ (State.enterRoused s).dram = s.dram ∧ (State.enterRoused s).con = s.con ∧ (State.enterRoused s).quiet = s.quiet ∧ (State.enterRoused s).su = s.su ∧ (State.enterRoused s).prof = s.prof ∧ (State.enterRoused s).free = s.free := by
  unfold State.enterRoused
  try dsimp only
  (repeat' split) <;> simp

@[simp] theorem State.enterRun_frame (s : State) :
    (State.enterRun s).pending = s.pending ∧ (State.enterRun s).ports = s.ports ∧ (State.enterRun s).ctx = s.ctx ∧ (State.enterRun s).flash.cells = s.flash.cells ∧ (State.enterRun s).lock = s.lock ∧ (State.enterRun s).dram.cells = s.dram.cells ∧ (State.enterRun s).dram.rows = s.dram.rows ∧ (State.enterRun s).con = s.con ∧ (State.enterRun s).su = s.su ∧ (State.enterRun s).prof = s.prof ∧ (State.enterRun s).free = s.free := by
  unfold State.enterRun
  try dsimp only
  (repeat' split) <;> simp

@[simp] theorem State.offerPowerfail_frame (s : State) :
    (State.offerPowerfail s).pending = s.pending ∧ (State.offerPowerfail s).ports = s.ports ∧ (State.offerPowerfail s).ctx = s.ctx ∧ (State.offerPowerfail s).com = s.com ∧ (State.offerPowerfail s).flash = s.flash ∧ (State.offerPowerfail s).img = s.img ∧ (State.offerPowerfail s).lock = s.lock ∧ (State.offerPowerfail s).dram = s.dram ∧ (State.offerPowerfail s).pow = s.pow ∧ (State.offerPowerfail s).con = s.con ∧ (State.offerPowerfail s).quiet = s.quiet ∧ (State.offerPowerfail s).su = s.su ∧ (State.offerPowerfail s).prof = s.prof ∧ (State.offerPowerfail s).free = s.free := by
  unfold State.offerPowerfail
  try dsimp only
  (repeat' split) <;> simp

@[simp] theorem State.enterPfDrain_frame (s : State) :
    (State.enterPfDrain s).pending = s.pending ∧ (State.enterPfDrain s).flash.cells = s.flash.cells ∧ (State.enterPfDrain s).lock = s.lock ∧ (State.enterPfDrain s).dram.cells = s.dram.cells ∧ (State.enterPfDrain s).dram.rows = s.dram.rows ∧ (State.enterPfDrain s).con = s.con ∧ (State.enterPfDrain s).su = s.su ∧ (State.enterPfDrain s).prof = s.prof ∧ (State.enterPfDrain s).free = s.free := by
  unfold State.enterPfDrain
  try dsimp only
  (repeat' split) <;> simp

@[simp] theorem State.resetSched_frame (s : State) :
    (State.resetSched s).pending = s.pending ∧ (State.resetSched s).ports = s.ports ∧ (State.resetSched s).ctx = s.ctx ∧ (State.resetSched s).stg = s.stg ∧ (State.resetSched s).flash = s.flash ∧ (State.resetSched s).img = s.img ∧ (State.resetSched s).lock = s.lock ∧ (State.resetSched s).dram = s.dram ∧ (State.resetSched s).pow = s.pow ∧ (State.resetSched s).con = s.con ∧ (State.resetSched s).quiet = s.quiet ∧ (State.resetSched s).mir = s.mir ∧ (State.resetSched s).su = s.su ∧ (State.resetSched s).prof = s.prof ∧ (State.resetSched s).free = s.free := by
  unfold State.resetSched
  try dsimp only
  (repeat' split) <;> simp

@[simp] theorem State.enterByLpreq_frame (s : State) :
    (State.enterByLpreq s).pending = s.pending ∧ (State.enterByLpreq s).flash.cells = s.flash.cells ∧ (State.enterByLpreq s).lock = s.lock ∧ (State.enterByLpreq s).dram.cells = s.dram.cells ∧ (State.enterByLpreq s).dram.rows = s.dram.rows ∧ (State.enterByLpreq s).con = s.con ∧ (State.enterByLpreq s).su = s.su ∧ (State.enterByLpreq s).prof = s.prof ∧ (State.enterByLpreq s).free = s.free := by
  unfold State.enterByLpreq
  try dsimp only
  (repeat' split) <;> simp

@[simp] theorem State.cancelEntry_frame (cause : Nat) (s : State) :
    (State.cancelEntry cause s).pending = s.pending ∧ (State.cancelEntry cause s).ports = s.ports ∧ (State.cancelEntry cause s).ctx = s.ctx ∧ (State.cancelEntry cause s).com = s.com ∧ (State.cancelEntry cause s).flash = s.flash ∧ (State.cancelEntry cause s).img = s.img ∧ (State.cancelEntry cause s).lock = s.lock ∧ (State.cancelEntry cause s).dram = s.dram ∧ (State.cancelEntry cause s).con = s.con ∧ (State.cancelEntry cause s).quiet = s.quiet ∧ (State.cancelEntry cause s).su = s.su ∧ (State.cancelEntry cause s).prof = s.prof ∧ (State.cancelEntry cause s).free = s.free := by
  unfold State.cancelEntry
  try dsimp only
  (repeat' split) <;> simp

@[simp] theorem State.wake_frame (cause : Nat) (s : State) :
    (State.wake cause s).pending = s.pending ∧ (State.wake cause s).ports = s.ports ∧ (State.wake cause s).ctx = s.ctx ∧ (State.wake cause s).stg = s.stg ∧ (State.wake cause s).com = s.com ∧ (State.wake cause s).flash = s.flash ∧ (State.wake cause s).img = s.img ∧ (State.wake cause s).lock = s.lock ∧ (State.wake cause s).dram.cells = s.dram.cells ∧ (State.wake cause s).dram.rows = s.dram.rows ∧ (State.wake cause s).con = s.con ∧ (State.wake cause s).quiet = s.quiet ∧ (State.wake cause s).mir = s.mir ∧ (State.wake cause s).su = s.su ∧ (State.wake cause s).prof = s.prof ∧ (State.wake cause s).free = s.free := by
  unfold State.wake
  try dsimp only
  (repeat' split) <;> simp

@[simp] theorem State.edge_frame (i : ClassId) (level : Bool) (s : State) :
    (State.edge i level s).pending = s.pending ∧ (State.edge i level s).ports = s.ports ∧ (State.edge i level s).ctx = s.ctx ∧ (State.edge i level s).stg = s.stg ∧ (State.edge i level s).com = s.com ∧ (State.edge i level s).flash = s.flash ∧ (State.edge i level s).img = s.img ∧ (State.edge i level s).lock = s.lock ∧ (State.edge i level s).dram.cells = s.dram.cells ∧ (State.edge i level s).dram.rows = s.dram.rows ∧ (State.edge i level s).quiet = s.quiet ∧ (State.edge i level s).su = s.su ∧ (State.edge i level s).prof = s.prof ∧ (State.edge i level s).free = s.free := by
  unfold State.edge
  try dsimp only
  (repeat' split) <;> simp

@[simp] theorem State.contactEvent_frame (i : ClassId) (level : Bool) (s : State) :
    (State.contactEvent i level s).pending = s.pending ∧ (State.contactEvent i level s).ports = s.ports ∧ (State.contactEvent i level s).ctx = s.ctx ∧ (State.contactEvent i level s).stg = s.stg ∧ (State.contactEvent i level s).com = s.com ∧ (State.contactEvent i level s).flash = s.flash ∧ (State.contactEvent i level s).img = s.img ∧ (State.contactEvent i level s).lock = s.lock ∧ (State.contactEvent i level s).dram.cells = s.dram.cells ∧ (State.contactEvent i level s).dram.rows = s.dram.rows ∧ (State.contactEvent i level s).quiet = s.quiet ∧ (State.contactEvent i level s).su = s.su ∧ (State.contactEvent i level s).prof = s.prof ∧ (State.contactEvent i level s).free = s.free := by
  unfold State.contactEvent
  try dsimp only
  (repeat' split) <;> simp

@[simp] theorem State.takeHeld_frame (s : State) (e : HeldEvent) :
    (State.takeHeld s e).pending = s.pending ∧ (State.takeHeld s e).ports = s.ports ∧ (State.takeHeld s e).ctx = s.ctx ∧ (State.takeHeld s e).stg = s.stg ∧ (State.takeHeld s e).com = s.com ∧ (State.takeHeld s e).flash = s.flash ∧ (State.takeHeld s e).img = s.img ∧ (State.takeHeld s e).lock = s.lock ∧ (State.takeHeld s e).dram.cells = s.dram.cells ∧ (State.takeHeld s e).dram.rows = s.dram.rows ∧ (State.takeHeld s e).quiet = s.quiet ∧ (State.takeHeld s e).su = s.su ∧ (State.takeHeld s e).prof = s.prof ∧ (State.takeHeld s e).free = s.free := by
  unfold State.takeHeld
  try dsimp only
  (repeat' split) <;> simp

theorem State.takeHeldAll_foldl (es : List HeldEvent) (s : State) : (es.foldl State.takeHeld s).pending = s.pending ∧ (es.foldl State.takeHeld s).ports = s.ports ∧ (es.foldl State.takeHeld s).ctx = s.ctx ∧ (es.foldl State.takeHeld s).stg = s.stg ∧ (es.foldl State.takeHeld s).com = s.com ∧ (es.foldl State.takeHeld s).flash = s.flash ∧ (es.foldl State.takeHeld s).img = s.img ∧ (es.foldl State.takeHeld s).lock = s.lock ∧ (es.foldl State.takeHeld s).dram.cells = s.dram.cells ∧ (es.foldl State.takeHeld s).dram.rows = s.dram.rows ∧ (es.foldl State.takeHeld s).quiet = s.quiet ∧ (es.foldl State.takeHeld s).su = s.su ∧ (es.foldl State.takeHeld s).prof = s.prof ∧ (es.foldl State.takeHeld s).free = s.free := by
  induction es generalizing s with
  | nil => simp
  | cons e es ih =>
    simp only [List.foldl]
    simp [ih]
@[simp] theorem State.takeHeldAll_frame (s : State) :
    (State.takeHeldAll s).pending = s.pending ∧ (State.takeHeldAll s).ports = s.ports ∧ (State.takeHeldAll s).ctx = s.ctx ∧ (State.takeHeldAll s).stg = s.stg ∧ (State.takeHeldAll s).com = s.com ∧ (State.takeHeldAll s).flash = s.flash ∧ (State.takeHeldAll s).img = s.img ∧ (State.takeHeldAll s).lock = s.lock ∧ (State.takeHeldAll s).dram.cells = s.dram.cells ∧ (State.takeHeldAll s).dram.rows = s.dram.rows ∧ (State.takeHeldAll s).quiet = s.quiet ∧ (State.takeHeldAll s).su = s.su ∧ (State.takeHeldAll s).prof = s.prof ∧ (State.takeHeldAll s).free = s.free := by
  unfold State.takeHeldAll; simp [State.takeHeldAll_foldl]
@[simp] theorem State.consumeOne_frame (s : State) :
    (State.consumeOne s).pending = s.pending ∧ (State.consumeOne s).ports = s.ports ∧ (State.consumeOne s).ctx = s.ctx ∧ (State.consumeOne s).com = s.com ∧ (State.consumeOne s).flash = s.flash ∧ (State.consumeOne s).img = s.img ∧ (State.consumeOne s).lock = s.lock ∧ (State.consumeOne s).dram = s.dram ∧ (State.consumeOne s).pow = s.pow ∧ (State.consumeOne s).quiet = s.quiet ∧ (State.consumeOne s).su = s.su ∧ (State.consumeOne s).prof = s.prof ∧ (State.consumeOne s).free = s.free := by
  unfold State.consumeOne
  try dsimp only
  (repeat' split) <;> simp

@[simp] theorem State.consumeAll_frame (s : State) :
    (State.consumeAll s).pending = s.pending ∧ (State.consumeAll s).ports = s.ports ∧ (State.consumeAll s).ctx = s.ctx ∧ (State.consumeAll s).com = s.com ∧ (State.consumeAll s).flash = s.flash ∧ (State.consumeAll s).img = s.img ∧ (State.consumeAll s).lock = s.lock ∧ (State.consumeAll s).dram = s.dram ∧ (State.consumeAll s).pow = s.pow ∧ (State.consumeAll s).quiet = s.quiet ∧ (State.consumeAll s).su = s.su ∧ (State.consumeAll s).prof = s.prof ∧ (State.consumeAll s).free = s.free := by
  unfold State.consumeAll
  try dsimp only
  (repeat' split) <;> simp

@[simp] theorem State.requestEntry_frame (why : EntryWhy) (s : State) :
    (State.requestEntry why s).pending = s.pending ∧ (State.requestEntry why s).ports = s.ports ∧ (State.requestEntry why s).ctx = s.ctx ∧ (State.requestEntry why s).stg = s.stg ∧ (State.requestEntry why s).com = s.com ∧ (State.requestEntry why s).flash = s.flash ∧ (State.requestEntry why s).img = s.img ∧ (State.requestEntry why s).lock = s.lock ∧ (State.requestEntry why s).dram.cells = s.dram.cells ∧ (State.requestEntry why s).pow = s.pow ∧ (State.requestEntry why s).con = s.con ∧ (State.requestEntry why s).quiet = s.quiet ∧ (State.requestEntry why s).mir = s.mir ∧ (State.requestEntry why s).su = s.su ∧ (State.requestEntry why s).prof = s.prof ∧ (State.requestEntry why s).free = s.free := by
  unfold State.requestEntry
  try dsimp only
  (repeat' split) <;> simp

@[simp] theorem State.sleepDram_frame (s : State) :
    (State.sleepDram s).pending = s.pending ∧ (State.sleepDram s).ports = s.ports ∧ (State.sleepDram s).ctx = s.ctx ∧ (State.sleepDram s).stg = s.stg ∧ (State.sleepDram s).com = s.com ∧ (State.sleepDram s).flash = s.flash ∧ (State.sleepDram s).img = s.img ∧ (State.sleepDram s).lock = s.lock ∧ (State.sleepDram s).dram.cells = s.dram.cells ∧ (State.sleepDram s).pow = s.pow ∧ (State.sleepDram s).con = s.con ∧ (State.sleepDram s).quiet = s.quiet ∧ (State.sleepDram s).mir = s.mir ∧ (State.sleepDram s).su = s.su ∧ (State.sleepDram s).prof = s.prof ∧ (State.sleepDram s).free = s.free := by
  unfold State.sleepDram
  try dsimp only
  (repeat' split) <;> simp

@[simp] theorem State.enterDoze_frame (s : State) :
    (State.enterDoze s).pending = s.pending ∧ (State.enterDoze s).ports = s.ports ∧ (State.enterDoze s).ctx = s.ctx ∧ (State.enterDoze s).stg = s.stg ∧ (State.enterDoze s).com = s.com ∧ (State.enterDoze s).flash = s.flash ∧ (State.enterDoze s).img = s.img ∧ (State.enterDoze s).lock = s.lock ∧ (State.enterDoze s).dram.cells = s.dram.cells ∧ (State.enterDoze s).dram.rows = s.dram.rows ∧ (State.enterDoze s).quiet = s.quiet ∧ (State.enterDoze s).su = s.su ∧ (State.enterDoze s).prof = s.prof ∧ (State.enterDoze s).free = s.free := by
  unfold State.enterDoze
  try dsimp only
  (repeat' split) <;> simp

@[simp] theorem State.enterPfHalt_frame (s : State) :
    (State.enterPfHalt s).pending = s.pending ∧ (State.enterPfHalt s).ports = s.ports ∧ (State.enterPfHalt s).ctx = s.ctx ∧ (State.enterPfHalt s).stg = s.stg ∧ (State.enterPfHalt s).com = s.com ∧ (State.enterPfHalt s).flash = s.flash ∧ (State.enterPfHalt s).img = s.img ∧ (State.enterPfHalt s).lock = s.lock ∧ (State.enterPfHalt s).dram.cells = s.dram.cells ∧ (State.enterPfHalt s).dram.rows = s.dram.rows ∧ (State.enterPfHalt s).con = s.con ∧ (State.enterPfHalt s).quiet = s.quiet ∧ (State.enterPfHalt s).su = s.su ∧ (State.enterPfHalt s).prof = s.prof ∧ (State.enterPfHalt s).free = s.free := by
  unfold State.enterPfHalt
  try dsimp only
  (repeat' split) <;> simp

@[simp] theorem State.wakeDram_frame (s : State) :
    (State.wakeDram s).pending = s.pending ∧ (State.wakeDram s).ports = s.ports ∧ (State.wakeDram s).ctx = s.ctx ∧ (State.wakeDram s).stg = s.stg ∧ (State.wakeDram s).com = s.com ∧ (State.wakeDram s).flash = s.flash ∧ (State.wakeDram s).img = s.img ∧ (State.wakeDram s).lock = s.lock ∧ (State.wakeDram s).dram.cells = s.dram.cells ∧ (State.wakeDram s).dram.rows = s.dram.rows ∧ (State.wakeDram s).pow = s.pow ∧ (State.wakeDram s).con = s.con ∧ (State.wakeDram s).quiet = s.quiet ∧ (State.wakeDram s).mir = s.mir ∧ (State.wakeDram s).su = s.su ∧ (State.wakeDram s).prof = s.prof ∧ (State.wakeDram s).free = s.free := by
  unfold State.wakeDram
  try dsimp only
  (repeat' split) <;> simp

@[simp] theorem State.leaveDoze_frame (s : State) :
    (State.leaveDoze s).pending = s.pending ∧ (State.leaveDoze s).flash.cells = s.flash.cells ∧ (State.leaveDoze s).lock = s.lock ∧ (State.leaveDoze s).dram.cells = s.dram.cells ∧ (State.leaveDoze s).dram.rows = s.dram.rows ∧ (State.leaveDoze s).con = s.con ∧ (State.leaveDoze s).su = s.su ∧ (State.leaveDoze s).prof = s.prof ∧ (State.leaveDoze s).free = s.free := by
  unfold State.leaveDoze
  try dsimp only
  (repeat' split) <;> simp

@[simp] theorem State.leavePfHalt_frame (s : State) :
    (State.leavePfHalt s).pending = s.pending ∧ (State.leavePfHalt s).flash.cells = s.flash.cells ∧ (State.leavePfHalt s).lock = s.lock ∧ (State.leavePfHalt s).dram.cells = s.dram.cells ∧ (State.leavePfHalt s).dram.rows = s.dram.rows ∧ (State.leavePfHalt s).con = s.con ∧ (State.leavePfHalt s).su = s.su ∧ (State.leavePfHalt s).prof = s.prof ∧ (State.leavePfHalt s).free = s.free := by
  unfold State.leavePfHalt
  try dsimp only
  (repeat' split) <;> simp

@[simp] theorem State.takeContact_frame (s : State) (e : HeldEvent) :
    (State.takeContact s e).pending = s.pending ∧ (State.takeContact s e).ports = s.ports ∧ (State.takeContact s e).ctx = s.ctx ∧ (State.takeContact s e).stg = s.stg ∧ (State.takeContact s e).com = s.com ∧ (State.takeContact s e).flash = s.flash ∧ (State.takeContact s e).img = s.img ∧ (State.takeContact s e).lock = s.lock ∧ (State.takeContact s e).dram.cells = s.dram.cells ∧ (State.takeContact s e).dram.rows = s.dram.rows ∧ (State.takeContact s e).quiet = s.quiet ∧ (State.takeContact s e).su = s.su ∧ (State.takeContact s e).prof = s.prof ∧ (State.takeContact s e).free = s.free := by
  unfold State.takeContact
  try dsimp only
  (repeat' split) <;> simp

theorem State.captureHeld_foldl (es : List HeldEvent) (s : State) : (es.foldl State.takeContact s).pending = s.pending ∧ (es.foldl State.takeContact s).ports = s.ports ∧ (es.foldl State.takeContact s).ctx = s.ctx ∧ (es.foldl State.takeContact s).stg = s.stg ∧ (es.foldl State.takeContact s).com = s.com ∧ (es.foldl State.takeContact s).flash = s.flash ∧ (es.foldl State.takeContact s).img = s.img ∧ (es.foldl State.takeContact s).lock = s.lock ∧ (es.foldl State.takeContact s).dram.cells = s.dram.cells ∧ (es.foldl State.takeContact s).dram.rows = s.dram.rows ∧ (es.foldl State.takeContact s).quiet = s.quiet ∧ (es.foldl State.takeContact s).su = s.su ∧ (es.foldl State.takeContact s).prof = s.prof ∧ (es.foldl State.takeContact s).free = s.free := by
  induction es generalizing s with
  | nil => simp
  | cons e es ih =>
    simp only [List.foldl]
    simp [ih]
@[simp] theorem State.captureHeld_frame (s : State) :
    (State.captureHeld s).pending = s.pending ∧ (State.captureHeld s).ports = s.ports ∧ (State.captureHeld s).ctx = s.ctx ∧ (State.captureHeld s).stg = s.stg ∧ (State.captureHeld s).com = s.com ∧ (State.captureHeld s).flash = s.flash ∧ (State.captureHeld s).img = s.img ∧ (State.captureHeld s).lock = s.lock ∧ (State.captureHeld s).dram.cells = s.dram.cells ∧ (State.captureHeld s).dram.rows = s.dram.rows ∧ (State.captureHeld s).quiet = s.quiet ∧ (State.captureHeld s).su = s.su ∧ (State.captureHeld s).prof = s.prof ∧ (State.captureHeld s).free = s.free := by
  unfold State.captureHeld; simp [State.captureHeld_foldl]
@[simp] theorem State.restart_frame (s : State) :
    (State.restart s).pending = s.pending ∧ (State.restart s).lock = s.lock ∧ (State.restart s).prof = s.prof := by
  unfold State.restart
  try dsimp only
  (repeat' split) <;> simp

@[simp] theorem State.powerReset_frame (supply : Supply) (s : State) :
    (State.powerReset supply s).pending = s.pending ∧ (State.powerReset supply s).lock = s.lock := by
  unfold State.powerReset
  try dsimp only
  (repeat' split) <;> simp

@[simp] theorem State.beginStartUp_frame (strap : Bool) (s : State) :
    (State.beginStartUp strap s).pending = s.pending ∧ (State.beginStartUp strap s).ctx = s.ctx ∧ (State.beginStartUp strap s).stg = s.stg ∧ (State.beginStartUp strap s).com = s.com ∧ (State.beginStartUp strap s).flash.cells = s.flash.cells ∧ (State.beginStartUp strap s).img = s.img ∧ (State.beginStartUp strap s).lock = s.lock ∧ (State.beginStartUp strap s).dram = s.dram ∧ (State.beginStartUp strap s).con = s.con ∧ (State.beginStartUp strap s).quiet = s.quiet ∧ (State.beginStartUp strap s).mir = s.mir ∧ (State.beginStartUp strap s).prof = s.prof ∧ (State.beginStartUp strap s).free = s.free := by
  unfold State.beginStartUp
  try dsimp only
  (repeat' split) <;> simp

@[simp] theorem State.install_frame (p : Profile) (k : ProfileState) (s : State) :
    (State.install p k s).pending = s.pending ∧ (State.install p k s).ports = s.ports ∧ (State.install p k s).ctx = s.ctx ∧ (State.install p k s).stg = s.stg ∧ (State.install p k s).flash = s.flash ∧ (State.install p k s).img = s.img ∧ (State.install p k s).lock = s.lock ∧ (State.install p k s).dram.cells = s.dram.cells ∧ (State.install p k s).pow = s.pow ∧ (State.install p k s).quiet = s.quiet ∧ (State.install p k s).free = s.free := by
  unfold State.install
  try dsimp only
  (repeat' split) <;> simp

@[simp] theorem State.loadProfile_frame (s : State) :
    (State.loadProfile s).pending = s.pending ∧ (State.loadProfile s).ports = s.ports ∧ (State.loadProfile s).ctx = s.ctx ∧ (State.loadProfile s).stg = s.stg ∧ (State.loadProfile s).flash = s.flash ∧ (State.loadProfile s).img = s.img ∧ (State.loadProfile s).lock = s.lock ∧ (State.loadProfile s).dram.cells = s.dram.cells ∧ (State.loadProfile s).pow = s.pow ∧ (State.loadProfile s).quiet = s.quiet ∧ (State.loadProfile s).free = s.free := by
  unfold State.loadProfile
  try dsimp only
  (repeat' split) <;> simp

@[simp] theorem State.beginDram_frame (s : State) :
    (State.beginDram s).pending = s.pending ∧ (State.beginDram s).ports = s.ports ∧ (State.beginDram s).ctx = s.ctx ∧ (State.beginDram s).stg = s.stg ∧ (State.beginDram s).com = s.com ∧ (State.beginDram s).flash = s.flash ∧ (State.beginDram s).img = s.img ∧ (State.beginDram s).lock = s.lock ∧ (State.beginDram s).dram.cells = s.dram.cells ∧ (State.beginDram s).dram.rows = s.dram.rows ∧ (State.beginDram s).pow = s.pow ∧ (State.beginDram s).con = s.con ∧ (State.beginDram s).quiet = s.quiet ∧ (State.beginDram s).mir = s.mir ∧ (State.beginDram s).prof = s.prof ∧ (State.beginDram s).free = s.free := by
  unfold State.beginDram
  try dsimp only
  (repeat' split) <;> simp

@[simp] theorem State.releaseResult_frame (code : Nat) (s : State) :
    (State.releaseResult code s).pending = s.pending ∧ (State.releaseResult code s).ports = s.ports ∧ (State.releaseResult code s).ctx = s.ctx ∧ (State.releaseResult code s).stg = s.stg ∧ (State.releaseResult code s).com = s.com ∧ (State.releaseResult code s).flash = s.flash ∧ (State.releaseResult code s).img = s.img ∧ (State.releaseResult code s).lock = s.lock ∧ (State.releaseResult code s).dram.cells = s.dram.cells ∧ (State.releaseResult code s).dram.rows = s.dram.rows ∧ (State.releaseResult code s).pow = s.pow ∧ (State.releaseResult code s).con = s.con ∧ (State.releaseResult code s).quiet = s.quiet ∧ (State.releaseResult code s).prof = s.prof ∧ (State.releaseResult code s).free = s.free := by
  unfold State.releaseResult
  try dsimp only
  (repeat' split) <;> simp

@[simp] theorem State.beginRelease_frame (s : State) :
    (State.beginRelease s).pending = s.pending ∧ (State.beginRelease s).ports = s.ports ∧ (State.beginRelease s).ctx = s.ctx ∧ (State.beginRelease s).stg = s.stg ∧ (State.beginRelease s).com = s.com ∧ (State.beginRelease s).flash.cells = s.flash.cells ∧ (State.beginRelease s).img = s.img ∧ (State.beginRelease s).lock = s.lock ∧ (State.beginRelease s).dram.cells = s.dram.cells ∧ (State.beginRelease s).dram.rows = s.dram.rows ∧ (State.beginRelease s).pow = s.pow ∧ (State.beginRelease s).con = s.con ∧ (State.beginRelease s).quiet = s.quiet ∧ (State.beginRelease s).prof = s.prof ∧ (State.beginRelease s).free = s.free := by
  unfold State.beginRelease
  try dsimp only
  (repeat' split) <;> simp

@[simp] theorem State.grantRelease_frame (s : State) :
    (State.grantRelease s).pending = s.pending ∧ (State.grantRelease s).ports = s.ports ∧ (State.grantRelease s).ctx = s.ctx ∧ (State.grantRelease s).stg = s.stg ∧ (State.grantRelease s).com = s.com ∧ (State.grantRelease s).flash = s.flash ∧ (State.grantRelease s).img = s.img ∧ (State.grantRelease s).dram.cells = s.dram.cells ∧ (State.grantRelease s).dram.rows = s.dram.rows ∧ (State.grantRelease s).pow = s.pow ∧ (State.grantRelease s).con = s.con ∧ (State.grantRelease s).quiet = s.quiet ∧ (State.grantRelease s).prof = s.prof ∧ (State.grantRelease s).free = s.free := by
  unfold State.grantRelease
  try dsimp only
  (repeat' split) <;> simp

@[simp] theorem State.releaseChecked_frame (block : Nat) (blank : Bool) (s : State) :
    (State.releaseChecked block blank s).pending = s.pending ∧ (State.releaseChecked block blank s).ports = s.ports ∧ (State.releaseChecked block blank s).ctx = s.ctx ∧ (State.releaseChecked block blank s).stg = s.stg ∧ (State.releaseChecked block blank s).com = s.com ∧ (State.releaseChecked block blank s).flash.cells = s.flash.cells ∧ (State.releaseChecked block blank s).img = s.img ∧ (State.releaseChecked block blank s).dram.cells = s.dram.cells ∧ (State.releaseChecked block blank s).dram.rows = s.dram.rows ∧ (State.releaseChecked block blank s).pow = s.pow ∧ (State.releaseChecked block blank s).con = s.con ∧ (State.releaseChecked block blank s).quiet = s.quiet ∧ (State.releaseChecked block blank s).prof = s.prof ∧ (State.releaseChecked block blank s).free = s.free := by
  unfold State.releaseChecked
  try dsimp only
  (repeat' split) <;> simp

@[simp] theorem State.leaveStarting_frame (s : State) :
    (State.leaveStarting s).pending = s.pending ∧ (State.leaveStarting s).flash.cells = s.flash.cells ∧ (State.leaveStarting s).lock = s.lock ∧ (State.leaveStarting s).dram.cells = s.dram.cells ∧ (State.leaveStarting s).dram.rows = s.dram.rows ∧ (State.leaveStarting s).con = s.con ∧ (State.leaveStarting s).su = s.su ∧ (State.leaveStarting s).prof = s.prof ∧ (State.leaveStarting s).free = s.free := by
  unfold State.leaveStarting
  try dsimp only
  (repeat' split) <;> simp

@[simp] theorem State.openPhase_frame (s : State) :
    (State.openPhase s).pending = s.pending ∧ (State.openPhase s).flash.cells = s.flash.cells ∧ (State.openPhase s).lock = s.lock ∧ (State.openPhase s).dram.cells = s.dram.cells ∧ (State.openPhase s).dram.rows = s.dram.rows ∧ (State.openPhase s).prof = s.prof ∧ (State.openPhase s).free = s.free := by
  unfold State.openPhase
  try dsimp only
  (repeat' split) <;> simp

@[simp] theorem State.readSlot_frame (c : ClassId) (q : Seq) (s : State) :
    (State.readSlot c q s).pending = s.pending ∧ (State.readSlot c q s).ports = s.ports ∧ (State.readSlot c q s).ctx = s.ctx ∧ (State.readSlot c q s).stg = s.stg ∧ (State.readSlot c q s).com = s.com ∧ (State.readSlot c q s).flash = s.flash ∧ (State.readSlot c q s).img = s.img ∧ (State.readSlot c q s).lock = s.lock ∧ (State.readSlot c q s).dram.cells = s.dram.cells ∧ (State.readSlot c q s).dram.rows = s.dram.rows ∧ (State.readSlot c q s).pow = s.pow ∧ (State.readSlot c q s).con = s.con ∧ (State.readSlot c q s).quiet = s.quiet ∧ (State.readSlot c q s).mir = s.mir ∧ (State.readSlot c q s).prof = s.prof ∧ (State.readSlot c q s).free = s.free := by
  unfold State.readSlot
  try dsimp only
  (repeat' split) <;> simp

@[simp] theorem State.recoverAfter_frame (c : ClassId) (s : State) :
    (State.recoverAfter c s).pending = s.pending ∧ (State.recoverAfter c s).flash.cells = s.flash.cells ∧ (State.recoverAfter c s).lock = s.lock ∧ (State.recoverAfter c s).dram.cells = s.dram.cells ∧ (State.recoverAfter c s).dram.rows = s.dram.rows ∧ (State.recoverAfter c s).prof = s.prof ∧ (State.recoverAfter c s).free = s.free := by
  unfold State.recoverAfter
  try dsimp only
  (repeat' split) <;> simp

@[simp] theorem State.beginRecovery_frame (s : State) :
    (State.beginRecovery s).pending = s.pending ∧ (State.beginRecovery s).flash.cells = s.flash.cells ∧ (State.beginRecovery s).lock = s.lock ∧ (State.beginRecovery s).dram.cells = s.dram.cells ∧ (State.beginRecovery s).dram.rows = s.dram.rows ∧ (State.beginRecovery s).prof = s.prof ∧ (State.beginRecovery s).free = s.free := by
  unfold State.beginRecovery
  try dsimp only
  (repeat' split) <;> simp

@[simp] theorem State.recoverRecord_frame (c : ClassId) (q : Seq) (s : State) :
    (State.recoverRecord c q s).pending = s.pending ∧ (State.recoverRecord c q s).ports = s.ports ∧ (State.recoverRecord c q s).ctx = s.ctx ∧ (State.recoverRecord c q s).flash = s.flash ∧ (State.recoverRecord c q s).img = s.img ∧ (State.recoverRecord c q s).lock = s.lock ∧ (State.recoverRecord c q s).dram = s.dram ∧ (State.recoverRecord c q s).pow = s.pow ∧ (State.recoverRecord c q s).con = s.con ∧ (State.recoverRecord c q s).quiet = s.quiet ∧ (State.recoverRecord c q s).prof = s.prof ∧ (State.recoverRecord c q s).free = s.free := by
  unfold State.recoverRecord
  try dsimp only
  (repeat' split) <;> simp

@[simp] theorem State.recoverSlot_frame (c : ClassId) (q : Seq) (accepted : Bool) (s : State) :
    (State.recoverSlot c q accepted s).pending = s.pending ∧ (State.recoverSlot c q accepted s).flash.cells = s.flash.cells ∧ (State.recoverSlot c q accepted s).lock = s.lock ∧ (State.recoverSlot c q accepted s).dram.cells = s.dram.cells ∧ (State.recoverSlot c q accepted s).dram.rows = s.dram.rows ∧ (State.recoverSlot c q accepted s).prof = s.prof ∧ (State.recoverSlot c q accepted s).free = s.free := by
  unfold State.recoverSlot
  try dsimp only
  (repeat' split) <;> simp

@[simp] theorem State.beginMount_frame (warm : Bool) (s : State) :
    (State.beginMount warm s).pending = s.pending ∧ (State.beginMount warm s).ports = s.ports ∧ (State.beginMount warm s).ctx = s.ctx ∧ (State.beginMount warm s).stg = s.stg ∧ (State.beginMount warm s).com = s.com ∧ (State.beginMount warm s).flash.cells = s.flash.cells ∧ (State.beginMount warm s).img = s.img ∧ (State.beginMount warm s).lock = s.lock ∧ (State.beginMount warm s).dram = s.dram ∧ (State.beginMount warm s).pow = s.pow ∧ (State.beginMount warm s).con = s.con ∧ (State.beginMount warm s).quiet = s.quiet ∧ (State.beginMount warm s).mir = s.mir ∧ (State.beginMount warm s).prof = s.prof ∧ (State.beginMount warm s).free = s.free := by
  unfold State.beginMount
  try dsimp only
  (repeat' split) <;> simp

@[simp] theorem State.mountClasses_frame (placed : Four Seq) (mask : Four Bool) (s : State) :
    (State.mountClasses placed mask s).pending = s.pending ∧ (State.mountClasses placed mask s).ports = s.ports ∧ (State.mountClasses placed mask s).ctx = s.ctx ∧ (State.mountClasses placed mask s).flash = s.flash ∧ (State.mountClasses placed mask s).img = s.img ∧ (State.mountClasses placed mask s).lock = s.lock ∧ (State.mountClasses placed mask s).dram = s.dram ∧ (State.mountClasses placed mask s).pow = s.pow ∧ (State.mountClasses placed mask s).con = s.con ∧ (State.mountClasses placed mask s).quiet = s.quiet ∧ (State.mountClasses placed mask s).su = s.su ∧ (State.mountClasses placed mask s).prof = s.prof ∧ (State.mountClasses placed mask s).free = s.free := by
  unfold State.mountClasses
  try dsimp only
  (repeat' split) <;> simp

@[simp] theorem State.endMount_frame (s : State) :
    (State.endMount s).pending = s.pending ∧ (State.endMount s).flash.cells = s.flash.cells ∧ (State.endMount s).lock = s.lock ∧ (State.endMount s).dram.cells = s.dram.cells ∧ (State.endMount s).dram.rows = s.dram.rows ∧ (State.endMount s).prof = s.prof ∧ (State.endMount s).free = s.free := by
  unfold State.endMount
  try dsimp only
  (repeat' split) <;> simp

@[simp] theorem State.setHeadBlock_frame (block : Nat) (s : State) :
    (State.setHeadBlock block s).pending = s.pending ∧ (State.setHeadBlock block s).ports = s.ports ∧ (State.setHeadBlock block s).ctx = s.ctx ∧ (State.setHeadBlock block s).stg = s.stg ∧ (State.setHeadBlock block s).flash = s.flash ∧ (State.setHeadBlock block s).img = s.img ∧ (State.setHeadBlock block s).lock = s.lock ∧ (State.setHeadBlock block s).dram = s.dram ∧ (State.setHeadBlock block s).pow = s.pow ∧ (State.setHeadBlock block s).con = s.con ∧ (State.setHeadBlock block s).quiet = s.quiet ∧ (State.setHeadBlock block s).su = s.su ∧ (State.setHeadBlock block s).prof = s.prof ∧ (State.setHeadBlock block s).free = s.free := by
  unfold State.setHeadBlock
  try dsimp only
  (repeat' split) <;> simp

@[simp] theorem State.setHeadPage_frame (page : Nat) (s : State) :
    (State.setHeadPage page s).pending = s.pending ∧ (State.setHeadPage page s).ports = s.ports ∧ (State.setHeadPage page s).ctx = s.ctx ∧ (State.setHeadPage page s).stg = s.stg ∧ (State.setHeadPage page s).flash = s.flash ∧ (State.setHeadPage page s).img = s.img ∧ (State.setHeadPage page s).lock = s.lock ∧ (State.setHeadPage page s).dram = s.dram ∧ (State.setHeadPage page s).pow = s.pow ∧ (State.setHeadPage page s).con = s.con ∧ (State.setHeadPage page s).quiet = s.quiet ∧ (State.setHeadPage page s).su = s.su ∧ (State.setHeadPage page s).prof = s.prof ∧ (State.setHeadPage page s).free = s.free := by
  unfold State.setHeadPage
  try dsimp only
  (repeat' split) <;> simp

@[simp] theorem State.growRun_frame (s : State) :
    (State.growRun s).pending = s.pending ∧ (State.growRun s).flash.cells = s.flash.cells ∧ (State.growRun s).lock = s.lock ∧ (State.growRun s).dram.cells = s.dram.cells ∧ (State.growRun s).dram.rows = s.dram.rows ∧ (State.growRun s).prof = s.prof ∧ (State.growRun s).free = s.free := by
  unfold State.growRun
  try dsimp only
  (repeat' split) <;> simp

@[simp] theorem State.mountEmpty_frame (s : State) :
    (State.mountEmpty s).pending = s.pending ∧ (State.mountEmpty s).ports = s.ports ∧ (State.mountEmpty s).ctx = s.ctx ∧ (State.mountEmpty s).flash.cells = s.flash.cells ∧ (State.mountEmpty s).img = s.img ∧ (State.mountEmpty s).lock = s.lock ∧ (State.mountEmpty s).dram = s.dram ∧ (State.mountEmpty s).pow = s.pow ∧ (State.mountEmpty s).con = s.con ∧ (State.mountEmpty s).quiet = s.quiet ∧ (State.mountEmpty s).prof = s.prof ∧ (State.mountEmpty s).free = s.free := by
  unfold State.mountEmpty
  try dsimp only
  (repeat' split) <;> simp

@[simp] theorem State.mountHead_frame (block : Nat) (s : State) :
    (State.mountHead block s).pending = s.pending ∧ (State.mountHead block s).ports = s.ports ∧ (State.mountHead block s).ctx = s.ctx ∧ (State.mountHead block s).stg = s.stg ∧ (State.mountHead block s).flash.cells = s.flash.cells ∧ (State.mountHead block s).img = s.img ∧ (State.mountHead block s).lock = s.lock ∧ (State.mountHead block s).dram = s.dram ∧ (State.mountHead block s).pow = s.pow ∧ (State.mountHead block s).con = s.con ∧ (State.mountHead block s).quiet = s.quiet ∧ (State.mountHead block s).prof = s.prof ∧ (State.mountHead block s).free = s.free := by
  unfold State.mountHead
  try dsimp only
  (repeat' split) <;> simp

@[simp] theorem State.mountLeadsDone_frame (s : State) :
    (State.mountLeadsDone s).pending = s.pending ∧ (State.mountLeadsDone s).ports = s.ports ∧ (State.mountLeadsDone s).ctx = s.ctx ∧ (State.mountLeadsDone s).flash.cells = s.flash.cells ∧ (State.mountLeadsDone s).img = s.img ∧ (State.mountLeadsDone s).lock = s.lock ∧ (State.mountLeadsDone s).dram = s.dram ∧ (State.mountLeadsDone s).pow = s.pow ∧ (State.mountLeadsDone s).con = s.con ∧ (State.mountLeadsDone s).quiet = s.quiet ∧ (State.mountLeadsDone s).prof = s.prof ∧ (State.mountLeadsDone s).free = s.free := by
  unfold State.mountLeadsDone
  try dsimp only
  (repeat' split) <;> simp

@[simp] theorem State.mountLead_frame (block : Nat) (k : PageClass) (s : State) :
    (State.mountLead block k s).pending = s.pending ∧ (State.mountLead block k s).ports = s.ports ∧ (State.mountLead block k s).ctx = s.ctx ∧ (State.mountLead block k s).flash.cells = s.flash.cells ∧ (State.mountLead block k s).img = s.img ∧ (State.mountLead block k s).lock = s.lock ∧ (State.mountLead block k s).dram = s.dram ∧ (State.mountLead block k s).pow = s.pow ∧ (State.mountLead block k s).con = s.con ∧ (State.mountLead block k s).quiet = s.quiet ∧ (State.mountLead block k s).prof = s.prof ∧ (State.mountLead block k s).free = s.free := by
  unfold State.mountLead
  try dsimp only
  (repeat' split) <;> simp

@[simp] theorem State.mountPagesDone_frame (s : State) :
    (State.mountPagesDone s).pending = s.pending ∧ (State.mountPagesDone s).flash.cells = s.flash.cells ∧ (State.mountPagesDone s).lock = s.lock ∧ (State.mountPagesDone s).dram.cells = s.dram.cells ∧ (State.mountPagesDone s).dram.rows = s.dram.rows ∧ (State.mountPagesDone s).prof = s.prof ∧ (State.mountPagesDone s).free = s.free := by
  unfold State.mountPagesDone
  try dsimp only
  (repeat' split) <;> simp

@[simp] theorem State.mountPage_frame (block page : Nat) (k : PageClass) (s : State) :
    (State.mountPage block page k s).pending = s.pending ∧ (State.mountPage block page k s).flash.cells = s.flash.cells ∧ (State.mountPage block page k s).lock = s.lock ∧ (State.mountPage block page k s).dram.cells = s.dram.cells ∧ (State.mountPage block page k s).dram.rows = s.dram.rows ∧ (State.mountPage block page k s).prof = s.prof ∧ (State.mountPage block page k s).free = s.free := by
  unfold State.mountPage
  try dsimp only
  (repeat' split) <;> simp

@[simp] theorem State.mountRead_frame (block page : Nat) (k : PageClass) (s : State) :
    (State.mountRead block page k s).pending = s.pending ∧ (State.mountRead block page k s).flash.cells = s.flash.cells ∧ (State.mountRead block page k s).lock = s.lock ∧ (State.mountRead block page k s).dram.cells = s.dram.cells ∧ (State.mountRead block page k s).dram.rows = s.dram.rows ∧ (State.mountRead block page k s).prof = s.prof ∧ (State.mountRead block page k s).free = s.free := by
  unfold State.mountRead
  try dsimp only
  (repeat' split) <;> simp

@[simp] theorem State.mountChecked_frame (blank : Bool) (s : State) :
    (State.mountChecked blank s).pending = s.pending ∧ (State.mountChecked blank s).flash.cells = s.flash.cells ∧ (State.mountChecked blank s).lock = s.lock ∧ (State.mountChecked blank s).dram.cells = s.dram.cells ∧ (State.mountChecked blank s).dram.rows = s.dram.rows ∧ (State.mountChecked blank s).prof = s.prof ∧ (State.mountChecked blank s).free = s.free := by
  unfold State.mountChecked
  try dsimp only
  (repeat' split) <;> simp

@[simp] theorem State.startChecked_frame (block : Nat) (blank : Bool) (s : State) :
    (State.startChecked block blank s).pending = s.pending ∧ (State.startChecked block blank s).flash.cells = s.flash.cells ∧ (State.startChecked block blank s).dram.cells = s.dram.cells ∧ (State.startChecked block blank s).dram.rows = s.dram.rows ∧ (State.startChecked block blank s).prof = s.prof ∧ (State.startChecked block blank s).free = s.free := by
  unfold State.startChecked
  try dsimp only
  (repeat' split) <;> simp

@[simp] theorem State.candidate_frame (x : Candidate) (s : State) :
    (State.candidate x s).pending = s.pending ∧ (State.candidate x s).ports = s.ports ∧ (State.candidate x s).ctx = s.ctx ∧ (State.candidate x s).flash = s.flash ∧ (State.candidate x s).img = s.img ∧ (State.candidate x s).lock = s.lock ∧ (State.candidate x s).dram = s.dram ∧ (State.candidate x s).pow = s.pow ∧ (State.candidate x s).con = s.con ∧ (State.candidate x s).quiet = s.quiet ∧ (State.candidate x s).su = s.su ∧ (State.candidate x s).prof = s.prof ∧ (State.candidate x s).free = s.free := by
  unfold State.candidate
  try dsimp only
  (repeat' split) <;> simp

@[simp] theorem State.loseRefresh_frame (s : State) :
    (State.loseRefresh s).pending = s.pending ∧ (State.loseRefresh s).ports = s.ports ∧ (State.loseRefresh s).ctx = s.ctx ∧ (State.loseRefresh s).com = s.com ∧ (State.loseRefresh s).flash = s.flash ∧ (State.loseRefresh s).img = s.img ∧ (State.loseRefresh s).lock = s.lock ∧ (State.loseRefresh s).dram.cells = s.dram.cells ∧ (State.loseRefresh s).dram.rows = s.dram.rows ∧ (State.loseRefresh s).pow = s.pow ∧ (State.loseRefresh s).con = s.con ∧ (State.loseRefresh s).quiet = s.quiet ∧ (State.loseRefresh s).su = s.su ∧ (State.loseRefresh s).prof = s.prof ∧ (State.loseRefresh s).free = s.free := by
  unfold State.loseRefresh
  try dsimp only
  (repeat' split) <;> simp

@[simp] theorem State.portReadEnd_frame (p : Port) (word len : Nat) (s : State) :
    (State.portReadEnd p word len s).pending = s.pending ∧ (State.portReadEnd p word len s).ctx = s.ctx ∧ (State.portReadEnd p word len s).stg = s.stg ∧ (State.portReadEnd p word len s).com = s.com ∧ (State.portReadEnd p word len s).flash = s.flash ∧ (State.portReadEnd p word len s).img = s.img ∧ (State.portReadEnd p word len s).lock = s.lock ∧ (State.portReadEnd p word len s).dram = s.dram ∧ (State.portReadEnd p word len s).pow = s.pow ∧ (State.portReadEnd p word len s).con = s.con ∧ (State.portReadEnd p word len s).quiet = s.quiet ∧ (State.portReadEnd p word len s).mir = s.mir ∧ (State.portReadEnd p word len s).su = s.su ∧ (State.portReadEnd p word len s).prof = s.prof ∧ (State.portReadEnd p word len s).free = s.free := by
  unfold State.portReadEnd
  try dsimp only
  (repeat' split) <;> simp

@[simp] theorem State.programPage_frame (block page : Nat) (words : List Word) (ds : List Defect) (s : State) :
    (State.programPage block page words ds s).pending = s.pending ∧ (State.programPage block page words ds s).ports = s.ports ∧ (State.programPage block page words ds s).ctx = s.ctx ∧ (State.programPage block page words ds s).stg = s.stg ∧ (State.programPage block page words ds s).com = s.com ∧ (State.programPage block page words ds s).img = s.img ∧ (State.programPage block page words ds s).lock = s.lock ∧ (State.programPage block page words ds s).dram = s.dram ∧ (State.programPage block page words ds s).pow = s.pow ∧ (State.programPage block page words ds s).con = s.con ∧ (State.programPage block page words ds s).quiet = s.quiet ∧ (State.programPage block page words ds s).mir = s.mir ∧ (State.programPage block page words ds s).su = s.su ∧ (State.programPage block page words ds s).prof = s.prof ∧ (State.programPage block page words ds s).free = s.free := by
  unfold State.programPage
  try dsimp only
  (repeat' split) <;> simp

@[simp] theorem State.erasedBlock_frame (block : Nat) (ds : List Defect) (s : State) :
    (State.erasedBlock block ds s).pending = s.pending ∧ (State.erasedBlock block ds s).ports = s.ports ∧ (State.erasedBlock block ds s).ctx = s.ctx ∧ (State.erasedBlock block ds s).stg = s.stg ∧ (State.erasedBlock block ds s).com = s.com ∧ (State.erasedBlock block ds s).img = s.img ∧ (State.erasedBlock block ds s).lock = s.lock ∧ (State.erasedBlock block ds s).dram = s.dram ∧ (State.erasedBlock block ds s).pow = s.pow ∧ (State.erasedBlock block ds s).con = s.con ∧ (State.erasedBlock block ds s).quiet = s.quiet ∧ (State.erasedBlock block ds s).mir = s.mir ∧ (State.erasedBlock block ds s).su = s.su ∧ (State.erasedBlock block ds s).prof = s.prof ∧ (State.erasedBlock block ds s).free = s.free := by
  unfold State.erasedBlock
  try dsimp only
  (repeat' split) <;> simp

@[simp] theorem State.pageVerified_frame (matched : Bool) (s : State) :
    (State.pageVerified matched s).pending = s.pending ∧ (State.pageVerified matched s).ports = s.ports ∧ (State.pageVerified matched s).ctx = s.ctx ∧ (State.pageVerified matched s).flash = s.flash ∧ (State.pageVerified matched s).img = s.img ∧ (State.pageVerified matched s).lock = s.lock ∧ (State.pageVerified matched s).dram = s.dram ∧ (State.pageVerified matched s).pow = s.pow ∧ (State.pageVerified matched s).con = s.con ∧ (State.pageVerified matched s).quiet = s.quiet ∧ (State.pageVerified matched s).su = s.su ∧ (State.pageVerified matched s).prof = s.prof ∧ (State.pageVerified matched s).free = s.free := by
  unfold State.pageVerified
  try dsimp only
  (repeat' split) <;> simp

@[simp] theorem State.pageTimedOut_frame (s : State) :
    (State.pageTimedOut s).pending = s.pending ∧ (State.pageTimedOut s).ports = s.ports ∧ (State.pageTimedOut s).ctx = s.ctx ∧ (State.pageTimedOut s).flash.cells = s.flash.cells ∧ (State.pageTimedOut s).img = s.img ∧ (State.pageTimedOut s).lock = s.lock ∧ (State.pageTimedOut s).dram = s.dram ∧ (State.pageTimedOut s).pow = s.pow ∧ (State.pageTimedOut s).con = s.con ∧ (State.pageTimedOut s).quiet = s.quiet ∧ (State.pageTimedOut s).su = s.su ∧ (State.pageTimedOut s).prof = s.prof ∧ (State.pageTimedOut s).free = s.free := by
  unfold State.pageTimedOut
  try dsimp only
  (repeat' split) <;> simp

@[simp] theorem State.timedOut_frame (j : Job) (s : State) :
    (State.timedOut j s).pending = s.pending ∧ (State.timedOut j s).ports = s.ports ∧ (State.timedOut j s).ctx = s.ctx ∧ (State.timedOut j s).lock = s.lock ∧ (State.timedOut j s).dram.cells = s.dram.cells ∧ (State.timedOut j s).dram.rows = s.dram.rows ∧ (State.timedOut j s).pow = s.pow ∧ (State.timedOut j s).con = s.con ∧ (State.timedOut j s).quiet = s.quiet ∧ (State.timedOut j s).su = s.su ∧ (State.timedOut j s).prof = s.prof := by
  unfold State.timedOut State.burnTakes
  dsimp only
  (repeat' split) <;> simp

@[simp] theorem State.burnStep1_frame (b : Burn) (s : State) :
    (State.burnStep1 b s).pending = s.pending ∧ (State.burnStep1 b s).ports = s.ports ∧ (State.burnStep1 b s).ctx = s.ctx ∧ (State.burnStep1 b s).com = s.com ∧ (State.burnStep1 b s).flash.cells = s.flash.cells ∧ (State.burnStep1 b s).lock = s.lock ∧ (State.burnStep1 b s).dram.cells = s.dram.cells ∧ (State.burnStep1 b s).dram.rows = s.dram.rows ∧ (State.burnStep1 b s).pow = s.pow ∧ (State.burnStep1 b s).con = s.con ∧ (State.burnStep1 b s).quiet = s.quiet ∧ (State.burnStep1 b s).su = s.su ∧ (State.burnStep1 b s).prof = s.prof ∧ (State.burnStep1 b s).free = s.free := by
  unfold State.burnStep1
  try dsimp only
  (repeat' split) <;> simp

@[simp] theorem State.fetched_frame (b : Burn) (bad : Bool) (words : List Word) (s : State) :
    (State.fetched b bad words s).pending = s.pending ∧ (State.fetched b bad words s).ports = s.ports ∧ (State.fetched b bad words s).ctx = s.ctx ∧ (State.fetched b bad words s).com = s.com ∧ (State.fetched b bad words s).flash.cells = s.flash.cells ∧ (State.fetched b bad words s).lock = s.lock ∧ (State.fetched b bad words s).dram.cells = s.dram.cells ∧ (State.fetched b bad words s).dram.rows = s.dram.rows ∧ (State.fetched b bad words s).pow = s.pow ∧ (State.fetched b bad words s).con = s.con ∧ (State.fetched b bad words s).quiet = s.quiet ∧ (State.fetched b bad words s).su = s.su ∧ (State.fetched b bad words s).prof = s.prof ∧ (State.fetched b bad words s).free = s.free := by
  unfold State.fetched
  try dsimp only
  (repeat' split) <;> simp

@[simp] theorem State.fillNext_frame (p : Port) (i : SlotId) (k : Nat) (q : DramReq) (s : State) :
    (State.fillNext p i k q s).pending = s.pending ∧ (State.fillNext p i k q s).ctx = s.ctx ∧ (State.fillNext p i k q s).stg = s.stg ∧ (State.fillNext p i k q s).com = s.com ∧ (State.fillNext p i k q s).flash = s.flash ∧ (State.fillNext p i k q s).img = s.img ∧ (State.fillNext p i k q s).lock = s.lock ∧ (State.fillNext p i k q s).pow = s.pow ∧ (State.fillNext p i k q s).con = s.con ∧ (State.fillNext p i k q s).quiet = s.quiet ∧ (State.fillNext p i k q s).su = s.su ∧ (State.fillNext p i k q s).prof = s.prof ∧ (State.fillNext p i k q s).free = s.free := by
  unfold State.fillNext
  try dsimp only
  (repeat' split) <;> simp

@[simp] theorem State.burnReadNext_frame (b : Burn) (q : DramReq) (s : State) :
    (State.burnReadNext b q s).pending = s.pending ∧ (State.burnReadNext b q s).ports = s.ports ∧ (State.burnReadNext b q s).ctx = s.ctx ∧ (State.burnReadNext b q s).stg = s.stg ∧ (State.burnReadNext b q s).com = s.com ∧ (State.burnReadNext b q s).flash = s.flash ∧ (State.burnReadNext b q s).lock = s.lock ∧ (State.burnReadNext b q s).pow = s.pow ∧ (State.burnReadNext b q s).con = s.con ∧ (State.burnReadNext b q s).quiet = s.quiet ∧ (State.burnReadNext b q s).su = s.su ∧ (State.burnReadNext b q s).prof = s.prof ∧ (State.burnReadNext b q s).free = s.free := by
  unfold State.burnReadNext
  try dsimp only
  (repeat' split) <;> simp

@[simp] theorem State.mirrorNext_frame (w : MirrorWrite) (q : DramReq) (s : State) :
    (State.mirrorNext w q s).pending = s.pending ∧ (State.mirrorNext w q s).ports = s.ports ∧ (State.mirrorNext w q s).ctx = s.ctx ∧ (State.mirrorNext w q s).stg = s.stg ∧ (State.mirrorNext w q s).com = s.com ∧ (State.mirrorNext w q s).flash = s.flash ∧ (State.mirrorNext w q s).img = s.img ∧ (State.mirrorNext w q s).lock = s.lock ∧ (State.mirrorNext w q s).pow = s.pow ∧ (State.mirrorNext w q s).con = s.con ∧ (State.mirrorNext w q s).quiet = s.quiet ∧ (State.mirrorNext w q s).su = s.su ∧ (State.mirrorNext w q s).prof = s.prof ∧ (State.mirrorNext w q s).free = s.free := by
  unfold State.mirrorNext
  try dsimp only
  (repeat' split) <;> simp

@[simp] theorem State.journalAnswer_frame (p : Port) (x : Option Reason × State) :
    (State.journalAnswer p x).pending = x.2.pending ∧ (State.journalAnswer p x).ctx = x.2.ctx ∧ (State.journalAnswer p x).stg = x.2.stg ∧ (State.journalAnswer p x).com = x.2.com ∧ (State.journalAnswer p x).flash = x.2.flash ∧ (State.journalAnswer p x).img = x.2.img ∧ (State.journalAnswer p x).lock = x.2.lock ∧ (State.journalAnswer p x).dram = x.2.dram ∧ (State.journalAnswer p x).pow = x.2.pow ∧ (State.journalAnswer p x).con = x.2.con ∧ (State.journalAnswer p x).quiet = x.2.quiet ∧ (State.journalAnswer p x).mir = x.2.mir ∧ (State.journalAnswer p x).su = x.2.su ∧ (State.journalAnswer p x).prof = x.2.prof ∧ (State.journalAnswer p x).free = x.2.free := by
  unfold State.journalAnswer
  try dsimp only
  (repeat' split) <;> simp

@[simp] theorem State.openMirror_frame (s : State) :
    (State.openMirror s).pending = s.pending ∧ (State.openMirror s).ports = s.ports ∧ (State.openMirror s).ctx = s.ctx ∧ (State.openMirror s).stg = s.stg ∧ (State.openMirror s).com = s.com ∧ (State.openMirror s).flash = s.flash ∧ (State.openMirror s).img = s.img ∧ (State.openMirror s).lock = s.lock ∧ (State.openMirror s).dram = s.dram ∧ (State.openMirror s).pow = s.pow ∧ (State.openMirror s).con = s.con ∧ (State.openMirror s).quiet = s.quiet ∧ (State.openMirror s).su = s.su ∧ (State.openMirror s).prof = s.prof ∧ (State.openMirror s).free = s.free := by
  unfold State.openMirror
  try dsimp only
  (repeat' split) <;> simp

@[simp] theorem State.mnpJoined_frame (s : State) :
    (State.mnpJoined s).pending = s.pending ∧ (State.mnpJoined s).ports = s.ports ∧ (State.mnpJoined s).ctx = s.ctx ∧ (State.mnpJoined s).stg = s.stg ∧ (State.mnpJoined s).com = s.com ∧ (State.mnpJoined s).flash = s.flash ∧ (State.mnpJoined s).img = s.img ∧ (State.mnpJoined s).lock = s.lock ∧ (State.mnpJoined s).dram.cells = s.dram.cells ∧ (State.mnpJoined s).dram.rows = s.dram.rows ∧ (State.mnpJoined s).con = s.con ∧ (State.mnpJoined s).quiet = s.quiet ∧ (State.mnpJoined s).mir = s.mir ∧ (State.mnpJoined s).su = s.su ∧ (State.mnpJoined s).prof = s.prof ∧ (State.mnpJoined s).free = s.free := by
  unfold State.mnpJoined
  try dsimp only
  (repeat' split) <;> simp

@[simp] theorem State.portDram_frame (p : Port) (c : Carry) (q : DramReq) (s : State) :
    (State.portDram p c q s).pending = s.pending ∧ (State.portDram p c q s).ctx = s.ctx ∧ (State.portDram p c q s).stg = s.stg ∧ (State.portDram p c q s).com = s.com ∧ (State.portDram p c q s).flash = s.flash ∧ (State.portDram p c q s).img = s.img ∧ (State.portDram p c q s).lock = s.lock ∧ (State.portDram p c q s).dram.cells = s.dram.cells ∧ (State.portDram p c q s).dram.rows = s.dram.rows ∧ (State.portDram p c q s).con = s.con ∧ (State.portDram p c q s).quiet = s.quiet ∧ (State.portDram p c q s).mir = s.mir ∧ (State.portDram p c q s).su = s.su ∧ (State.portDram p c q s).prof = s.prof ∧ (State.portDram p c q s).free = s.free := by
  unfold State.portDram
  try dsimp only
  (repeat' split) <;> simp

@[simp] theorem State.ackEnd_frame (p : Port) (q : DramReq) (s : State) :
    (State.ackEnd p q s).pending = s.pending ∧ (State.ackEnd p q s).ctx = s.ctx ∧ (State.ackEnd p q s).stg = s.stg ∧ (State.ackEnd p q s).com = s.com ∧ (State.ackEnd p q s).flash = s.flash ∧ (State.ackEnd p q s).img = s.img ∧ (State.ackEnd p q s).lock = s.lock ∧ (State.ackEnd p q s).pow = s.pow ∧ (State.ackEnd p q s).con = s.con ∧ (State.ackEnd p q s).quiet = s.quiet ∧ (State.ackEnd p q s).su = s.su ∧ (State.ackEnd p q s).prof = s.prof ∧ (State.ackEnd p q s).free = s.free := by
  unfold State.ackEnd
  try dsimp only
  (repeat' split) <;> simp

@[simp] theorem State.plainEnd_frame (p : Port) (q : DramReq) (s : State) :
    (State.plainEnd p q s).pending = s.pending ∧ (State.plainEnd p q s).ctx = s.ctx ∧ (State.plainEnd p q s).com = s.com ∧ (State.plainEnd p q s).flash = s.flash ∧ (State.plainEnd p q s).img = s.img ∧ (State.plainEnd p q s).lock = s.lock ∧ (State.plainEnd p q s).pow = s.pow ∧ (State.plainEnd p q s).con = s.con ∧ (State.plainEnd p q s).quiet = s.quiet ∧ (State.plainEnd p q s).su = s.su ∧ (State.plainEnd p q s).prof = s.prof ∧ (State.plainEnd p q s).free = s.free := by
  unfold State.plainEnd
  try dsimp only
  (repeat' split) <;> simp

@[simp] theorem State.portGrantEnd_frame (p : Port) (s : State) :
    (State.portGrantEnd p s).pending = s.pending ∧ (State.portGrantEnd p s).ctx = s.ctx ∧ (State.portGrantEnd p s).com = s.com ∧ (State.portGrantEnd p s).flash = s.flash ∧ (State.portGrantEnd p s).img.burn = s.img.burn ∧ (State.portGrantEnd p s).lock = s.lock ∧ (State.portGrantEnd p s).pow = s.pow ∧ (State.portGrantEnd p s).con = s.con ∧ (State.portGrantEnd p s).quiet = s.quiet ∧ (State.portGrantEnd p s).su = s.su ∧ (State.portGrantEnd p s).prof = s.prof ∧ (State.portGrantEnd p s).free = s.free := by
  unfold State.portGrantEnd
  try dsimp only
  (repeat' split) <;> simp

@[simp] theorem State.recordStaged_frame (e : RingEntry) (q : Seq) (s : State) :
    (State.recordStaged e q s).pending = s.pending ∧ (State.recordStaged e q s).ports = s.ports ∧ (State.recordStaged e q s).ctx = s.ctx ∧ (State.recordStaged e q s).flash = s.flash ∧ (State.recordStaged e q s).img = s.img ∧ (State.recordStaged e q s).lock = s.lock ∧ (State.recordStaged e q s).dram = s.dram ∧ (State.recordStaged e q s).pow = s.pow ∧ (State.recordStaged e q s).con = s.con ∧ (State.recordStaged e q s).quiet = s.quiet ∧ (State.recordStaged e q s).su = s.su ∧ (State.recordStaged e q s).prof = s.prof ∧ (State.recordStaged e q s).free = s.free := by
  unfold State.recordStaged
  try dsimp only
  (repeat' split) <;> simp

@[simp] theorem State.depart_frame (r : Record) (rest : List Record) (s : State) :
    (State.depart r rest s).pending = s.pending ∧ (State.depart r rest s).ports = s.ports ∧ (State.depart r rest s).ctx = s.ctx ∧ (State.depart r rest s).com = s.com ∧ (State.depart r rest s).flash = s.flash ∧ (State.depart r rest s).img = s.img ∧ (State.depart r rest s).lock = s.lock ∧ (State.depart r rest s).dram = s.dram ∧ (State.depart r rest s).pow = s.pow ∧ (State.depart r rest s).con = s.con ∧ (State.depart r rest s).quiet = s.quiet ∧ (State.depart r rest s).su = s.su ∧ (State.depart r rest s).prof = s.prof ∧ (State.depart r rest s).free = s.free := by
  unfold State.depart
  try dsimp only
  (repeat' split) <;> simp

@[simp] theorem State.filled_frame (s : State) :
    (State.filled s).pending = s.pending ∧ (State.filled s).ports = s.ports ∧ (State.filled s).ctx = s.ctx ∧ (State.filled s).stg = s.stg ∧ (State.filled s).com = s.com ∧ (State.filled s).flash = s.flash ∧ (State.filled s).img = s.img ∧ (State.filled s).lock = s.lock ∧ (State.filled s).pow = s.pow ∧ (State.filled s).con = s.con ∧ (State.filled s).quiet = s.quiet ∧ (State.filled s).mir = s.mir ∧ (State.filled s).prof = s.prof ∧ (State.filled s).free = s.free := by
  unfold State.filled
  try dsimp only
  (repeat' split) <;> simp

/-- A burst of journal words, by induction over the words (R11). -/
@[simp] theorem State.journalWords_frame (p : Port) (c : ClassId) (k : Nat) (ws : List Word) (s : State) :
    (State.journalWords p c k ws s).2.pending = s.pending ∧ (State.journalWords p c k ws s).2.ports = s.ports ∧ (State.journalWords p c k ws s).2.com = s.com ∧ (State.journalWords p c k ws s).2.flash = s.flash ∧ (State.journalWords p c k ws s).2.img = s.img ∧ (State.journalWords p c k ws s).2.lock = s.lock ∧ (State.journalWords p c k ws s).2.dram = s.dram ∧ (State.journalWords p c k ws s).2.con = s.con ∧ (State.journalWords p c k ws s).2.su = s.su ∧ (State.journalWords p c k ws s).2.prof = s.prof ∧ (State.journalWords p c k ws s).2.free = s.free := by
  induction ws generalizing k s with
  | nil => simp [State.journalWords]
  | cons w ws ih =>
    have h := State.journalWord_frame p c k true w s
    simp only [State.journalWords]
    split <;> rename_i heq <;> simp [heq] at h <;> simp [ih, h]

/-- The result of a burn job changes nothing that neither a requeue nor the step it goes to changes. -/
theorem State.burnTakes_keeps {α : Type} (g : State → α) (f : Burn → State → State) (s : State)
    (hr : ∀ b, g (s.burnRequeue b) = g s) (hf : ∀ b, g (f b s) = g s) : g (s.burnTakes f) = g s := by
  unfold State.burnTakes; (repeat' split) <;> simp [hr, hf]

/-- Choosing a job changes no flash contents (R70). -/
theorem Flash.takeNext_cells (b : Bool) (f g : Flash) (j : Job) (h : f.takeNext b = some (j, g)) : g.cells = f.cells := by
  unfold Flash.takeNext Flash.takeUpkeep Flash.takeLater at h
  (repeat' split at h) <;> simp_all <;> (obtain ⟨_, rfl⟩ := h; rfl)

end Sys2Proof.Machine
end

