-- ==== Sys2Proof/Laws/Memory.lean ====
section
/-! SUPPORT. The sparse word stores: reading after writing, and that every operation over them keeps the canonical form. -/

namespace Sys2Proof.Machine

/-! ## Reading after writing -/

theorem readCell_writeCell_same {w : Nat} (d : BitVec w) (cells : List (Nat × BitVec w)) (a : Nat) (v : BitVec w)
    (h : cellsWf d cells = true) : readCell d (writeCell d cells a v) a = v := by
  have key : ∀ (cells : List (Nat × BitVec w)) (lo : Nat), cellsFrom d lo cells = true →
      readCell d (writeCell d cells a v) a = v := by
    intro cells
    induction cells with
    | nil => intro lo _; unfold writeCell; split <;> simp_all [readCell]
    | cons c cs ih =>
      obtain ⟨k, x⟩ := c
      intro lo hwf
      simp only [cellsFrom, Bool.and_eq_true, decide_eq_true_eq] at hwf
      have below : ∀ (l : List (Nat × BitVec w)) (lo : Nat), cellsFrom d lo l = true → a < lo → readCell d l a = d := by
        intro l
        induction l with
        | nil => intros; rfl
        | cons e es ih2 =>
          obtain ⟨k2, x2⟩ := e
          intro lo2 h2 h3
          simp only [cellsFrom, Bool.and_eq_true, decide_eq_true_eq] at h2
          have : k2 ≠ a := by omega
          simp only [readCell, this, if_false]
          exact ih2 (k2 + 1) h2.2 (by omega)
      unfold writeCell
      by_cases h1 : a < k
      · by_cases hv : v = d
        · have hk : k ≠ a := by omega
          simp only [h1, hv, if_true, readCell, hk, if_false]
          exact below cs (k + 1) hwf.2 (by omega)
        · simp [h1, hv, readCell]
      · by_cases h2 : a = k
        · by_cases hv : v = d
          · simp only [h1, h2, hv, if_true, if_false]
            subst h2
            simpa [Nat.lt_irrefl] using below cs (a + 1) hwf.2 (by omega)
          · simp [h2, hv, readCell]
        · have hk : k ≠ a := fun e => h2 e.symm
          simp only [h1, h2, if_false, readCell, hk]
          exact ih (k + 1) hwf.2
  exact key cells 0 h

theorem readCell_writeCell_ne {w : Nat} (d : BitVec w) (cells : List (Nat × BitVec w)) (a b : Nat) (v : BitVec w)
    (h : b ≠ a) : readCell d (writeCell d cells a v) b = readCell d cells b := by
  induction cells with
  | nil => unfold writeCell; split <;> simp [readCell, h.symm]
  | cons c cs ih =>
    obtain ⟨k, x⟩ := c
    unfold writeCell
    by_cases h1 : a < k
    · by_cases hv : v = d
      · simp [h1, hv]
      · simp [h1, hv, readCell, h.symm]
    · by_cases h2 : a = k
      · have hk : k ≠ b := by omega
        by_cases hv : v = d
        · simp [h2, hv, readCell, hk]
        · simp [h2, hv, readCell, hk]
      · simp only [h1, h2, if_false, readCell]
        split
        · rfl
        · exact ih

theorem readCell_writeCells_outside {w : Nat} (d : BitVec w) (vs : List (BitVec w)) (cells : List (Nat × BitVec w)) (a b : Nat)
    (h : b < a ∨ a + vs.length ≤ b) : readCell d (writeCells d cells a vs) b = readCell d cells b := by
  induction vs generalizing cells a with
  | nil => rfl
  | cons v vs ih =>
    simp only [List.length_cons] at h
    rw [writeCells, ih _ _ (by omega), readCell_writeCell_ne _ _ _ _ _ (by omega)]

theorem readCell_filter {w : Nat} (d : BitVec w) (p : Nat → Bool) (cells : List (Nat × BitVec w)) (a : Nat) (h : p a = true) :
    readCell d (cells.filter (fun c => p c.1)) a = readCell d cells a := by
  induction cells with
  | nil => rfl
  | cons c cs ih =>
    obtain ⟨k, x⟩ := c
    simp only [List.filter, readCell]
    by_cases hk : k = a
    · subst hk; simp [h, readCell]
    · cases hp : p k <;> simp [readCell, hk, ih]

theorem readCell_filter_out {w : Nat} (d : BitVec w) (p : Nat → Bool) (cells : List (Nat × BitVec w)) (a : Nat) (h : p a = false) :
    readCell d (cells.filter (fun c => p c.1)) a = d := by
  induction cells with
  | nil => rfl
  | cons c cs ih =>
    obtain ⟨k, x⟩ := c
    simp only [List.filter]
    by_cases hk : k = a
    · subst hk; simpa [h] using ih
    · cases hp : p k <;> simp [readCell, hk, ih]

/-- An erased block reads FFFFFFFFh throughout (R62). -/
theorem eraseBlock_inside (cells : List (Nat × Word)) (block a : Nat) (h : inBlock block a = true) :
    readCell erasedWord (eraseBlock cells block) a = erasedWord :=
  readCell_filter_out erasedWord (fun x => !inBlock block x) cells a (by simp [h])

/-- An erase changes no word of another block. -/
theorem eraseBlock_outside (cells : List (Nat × Word)) (block a : Nat) (h : inBlock block a = false) :
    readCell erasedWord (eraseBlock cells block) a = readCell erasedWord cells a :=
  readCell_filter erasedWord (fun x => !inBlock block x) cells a (by simp [h])

/-- A block part-way through an erase: each word reads FFFFFFFFh or its former value, as the free value says (R73, R74). -/
theorem partEraseBlock_read (n : Nat) (cells : List (Nat × Word)) (block a : Nat) :
    readCell erasedWord (partEraseBlock n cells block) a =
      if inBlock block a && Config.erasedAt n a then erasedWord else readCell erasedWord cells a := by
  cases h : (inBlock block a && Config.erasedAt n a)
  · exact readCell_filter erasedWord (fun x => !(inBlock block x && Config.erasedAt n x)) cells a (by simp [h])
  · exact readCell_filter_out erasedWord (fun x => !(inBlock block x && Config.erasedAt n x)) cells a (by simp [h])

/-! ## The canonical form is kept -/

theorem cellsFrom_weaken {w : Nat} (d : BitVec w) (cells : List (Nat × BitVec w)) (lo hi : Nat) (h : lo ≤ hi)
    (hc : cellsFrom d hi cells = true) : cellsFrom d lo cells = true := by
  cases cells with
  | nil => rfl
  | cons c cs =>
    simp only [cellsFrom, Bool.and_eq_true, decide_eq_true_eq] at hc ⊢
    exact ⟨⟨by omega, hc.1.2⟩, hc.2⟩

theorem writeCell_from {w : Nat} (d : BitVec w) (cells : List (Nat × BitVec w)) (a lo : Nat) (v : BitVec w) (ha : lo ≤ a)
    (h : cellsFrom d lo cells = true) : cellsFrom d lo (writeCell d cells a v) = true := by
  induction cells generalizing lo with
  | nil => unfold writeCell; split <;> simp_all [cellsFrom]
  | cons c cs ih =>
    obtain ⟨k, x⟩ := c
    simp only [cellsFrom, Bool.and_eq_true, decide_eq_true_eq] at h
    unfold writeCell
    by_cases h1 : a < k
    · by_cases hv : v = d
      · simp only [h1, hv, if_true, cellsFrom, Bool.and_eq_true, decide_eq_true_eq]; exact h
      · simp only [h1, hv, if_true, if_false, cellsFrom, Bool.and_eq_true, decide_eq_true_eq]
        exact ⟨⟨ha, hv⟩, ⟨by omega, h.1.2⟩, h.2⟩
    · by_cases h2 : a = k
      · by_cases hv : v = d
        · simp only [h2, hv, Nat.lt_irrefl, if_true, if_false]
          exact cellsFrom_weaken d cs lo (k + 1) (by omega) h.2
        · simp only [h2, hv, Nat.lt_irrefl, if_true, if_false, cellsFrom, Bool.and_eq_true, decide_eq_true_eq]
          exact ⟨⟨by omega, hv⟩, h.2⟩
      · simp only [h1, h2, if_false, cellsFrom, Bool.and_eq_true, decide_eq_true_eq]
        exact ⟨h.1, ih (k + 1) (by omega) h.2⟩

theorem writeCell_wf {w : Nat} (d : BitVec w) (cells : List (Nat × BitVec w)) (a : Nat) (v : BitVec w)
    (h : cellsWf d cells = true) : cellsWf d (writeCell d cells a v) = true := writeCell_from d cells a 0 v (Nat.zero_le _) h

theorem writeCells_wf {w : Nat} (d : BitVec w) (vs : List (BitVec w)) (cells : List (Nat × BitVec w)) (a : Nat)
    (h : cellsWf d cells = true) : cellsWf d (writeCells d cells a vs) = true := by
  induction vs generalizing cells a with
  | nil => exact h
  | cons v vs ih => exact ih _ _ (writeCell_wf d cells a v h)

theorem filter_from {w : Nat} (d : BitVec w) (p : Nat × BitVec w → Bool) (cells : List (Nat × BitVec w)) (lo : Nat)
    (h : cellsFrom d lo cells = true) : cellsFrom d lo (cells.filter p) = true := by
  induction cells generalizing lo with
  | nil => rfl
  | cons c cs ih =>
    simp only [cellsFrom, Bool.and_eq_true, decide_eq_true_eq] at h
    simp only [List.filter]
    split
    · simp only [cellsFrom, Bool.and_eq_true, decide_eq_true_eq]; exact ⟨h.1, ih _ h.2⟩
    · exact cellsFrom_weaken d _ lo (c.1 + 1) (by omega) (ih _ h.2)

theorem filter_wf {w : Nat} (d : BitVec w) (p : Nat × BitVec w → Bool) (cells : List (Nat × BitVec w))
    (h : cellsWf d cells = true) : cellsWf d (cells.filter p) = true := filter_from d p cells 0 h

theorem programWords_wf (vs : List Word) (cells : List (Nat × Word)) (a : Nat) (h : cellsWf erasedWord cells = true) :
    cellsWf erasedWord (programWords cells a vs) = true := by
  induction vs generalizing cells a with
  | nil => exact h
  | cons v vs ih => exact ih _ _ (writeCell_wf _ _ _ _ h)

theorem tearWords_wf (n : Nat) (vs : List Word) (cells : List (Nat × Word)) (a : Nat) (h : cellsWf erasedWord cells = true) :
    cellsWf erasedWord (tearWords n cells a vs) = true := by
  induction vs generalizing cells a with
  | nil => exact h
  | cons v vs ih => exact ih _ _ (writeCell_wf _ _ _ _ h)

theorem applyDefects_wf (ds : List Defect) (cells : List (Nat × Word)) (base : Nat) (h : cellsWf erasedWord cells = true) :
    cellsWf erasedWord (applyDefects cells base ds) = true := by
  induction ds generalizing cells with
  | nil => exact h
  | cons d ds ih => exact ih _ (writeCell_wf _ _ _ _ h)

theorem eraseBlock_wf (cells : List (Nat × Word)) (block : Nat) (h : cellsWf erasedWord cells = true) :
    cellsWf erasedWord (eraseBlock cells block) = true := filter_wf _ _ _ h

theorem partEraseBlock_wf (n : Nat) (cells : List (Nat × Word)) (block : Nat) (h : cellsWf erasedWord cells = true) :
    cellsWf erasedWord (partEraseBlock n cells block) = true := filter_wf _ _ _ h

theorem applyUpsets_wf (us : List Upset) (cells : List (Nat × Code)) (h : cellsWf dramDefault cells = true) :
    cellsWf dramDefault (applyUpsets cells us) = true := by
  induction us generalizing cells with
  | nil => exact h
  | cons u us ih => exact ih _ (writeCell_wf _ _ _ _ h)

theorem writeDram_wf (cells : List (Nat × Code)) (off : Nat) (ws : List Word) (h : cellsWf dramDefault cells = true) :
    cellsWf dramDefault (writeDram cells off ws) = true := writeCells_wf _ _ _ _ h

theorem writeBackCells_wf (cells : List (Nat × Code)) (off : Nat) (h : cellsWf dramDefault cells = true) :
    cellsWf dramDefault (writeBackCells cells off) = true := by
  unfold writeBackCells; split <;> first | exact writeDram_wf _ _ _ h | exact h

theorem cellsAfter_wf (cells : List (Nat × Code)) (q : DramReq) (h : cellsWf dramDefault cells = true) :
    cellsWf dramDefault (cellsAfter cells q) = true := by
  unfold cellsAfter
  (repeat' split) <;> first | exact writeDram_wf _ _ _ h | exact h

/-- The reset state's memories are canonical. -/
theorem reset_memoryWf : State.reset.memoryWf = true := rfl

/-- A DRAM request changes no word outside its span. -/
theorem cellsAfter_outside (cells : List (Nat × Code)) (q : DramReq) (a : Nat) (h : a < q.span.1 ∨ q.span.1 + q.span.2 ≤ a) :
    readCell dramDefault (cellsAfter cells q) a = readCell dramDefault cells a := by
  unfold cellsAfter writeDram
  cases q with
  | read off len => rfl
  | write off ws => exact readCell_writeCells_outside _ _ _ _ _ (by simpa [DramReq.span] using h)
  | rmw off w en =>
    simp only [DramReq.span] at h
    dsimp only
    split
    · rfl
    · exact readCell_writeCells_outside _ _ _ _ _ (by simpa using h)

/-- A run written reads back word by word. -/
theorem readCell_writeCells_inside {w : Nat} (d : BitVec w) (vs : List (BitVec w)) (cells : List (Nat × BitVec w)) (a b : Nat)
    (h : cellsWf d cells = true) (h1 : a ≤ b) (h2 : b < a + vs.length) :
    readCell d (writeCells d cells a vs) b = vs.getD (b - a) d := by
  induction vs generalizing cells a with
  | nil => simp at h2; omega
  | cons v vs ih =>
    simp only [List.length_cons] at h2
    by_cases hb : b = a
    · subst hb
      rw [writeCells, readCell_writeCells_outside _ _ _ _ _ (by omega), readCell_writeCell_same _ _ _ _ h]
      simp
    · rw [writeCells, ih _ (a + 1) (writeCell_wf _ _ _ _ h) (by omega) (by omega)]
      rw [show b - a = (b - (a + 1)) + 1 by omega, List.getD_cons_succ]

/-- A run written to the DRAM reads back as stored, with fresh check bits (R132). -/
theorem readCell_writeDram_inside (cells : List (Nat × Code)) (off : Nat) (ws : List Word) (a : Nat)
    (h : cellsWf dramDefault cells = true) (h1 : off ≤ a) (h2 : a < off + ws.length) :
    readCell dramDefault (writeDram cells off ws) a = encodeWord (wordAt ws (a - off)) := by
  rw [writeDram, readCell_writeCells_inside _ _ _ _ _ h h1 (by simpa using h2), wordAt]
  have hi : a - off < ws.length := by omega
  simp [List.getD, hi]

/-- A run programmed keeps every word outside it (R62). -/
theorem readCell_programWords_outside (vs : List Word) (cells : List (Nat × Word)) (a b : Nat) (h : b < a ∨ a + vs.length ≤ b) :
    readCell erasedWord (programWords cells a vs) b = readCell erasedWord cells b := by
  induction vs generalizing cells a with
  | nil => rfl
  | cons v vs ih =>
    simp only [List.length_cons] at h
    rw [programWords, ih _ _ (by omega), readCell_writeCell_ne _ _ _ _ _ (by omega)]

/-- A run programmed reads as the words there and-ed with the words programmed (R62). -/
theorem readCell_programWords_inside (vs : List Word) (cells : List (Nat × Word)) (a b : Nat)
    (h : cellsWf erasedWord cells = true) (h1 : a ≤ b) (h2 : b < a + vs.length) :
    readCell erasedWord (programWords cells a vs) b = readCell erasedWord cells b &&& vs.getD (b - a) erasedWord := by
  induction vs generalizing cells a with
  | nil => simp at h2; omega
  | cons v vs ih =>
    simp only [List.length_cons] at h2
    by_cases hb : b = a
    · subst hb
      rw [programWords, readCell_programWords_outside _ _ _ _ (by omega), readCell_writeCell_same _ _ _ _ h]
      simp
    · rw [programWords, ih _ (a + 1) (writeCell_wf _ _ _ _ h) (by omega) (by omega),
        readCell_writeCell_ne _ _ _ _ _ hb, show b - a = (b - (a + 1)) + 1 by omega, List.getD_cons_succ]

/-- A torn run keeps every word outside it, and each of its words is erased or the one being programmed (R74, R78). -/
theorem readCell_tearWords_outside (n : Nat) (vs : List Word) (cells : List (Nat × Word)) (a b : Nat)
    (h : b < a ∨ a + vs.length ≤ b) : readCell erasedWord (tearWords n cells a vs) b = readCell erasedWord cells b := by
  induction vs generalizing cells a with
  | nil => rfl
  | cons v vs ih =>
    simp only [List.length_cons] at h
    rw [tearWords, ih _ _ (by omega), readCell_writeCell_ne _ _ _ _ _ (by omega)]

theorem readCell_tearWords_inside (n : Nat) (vs : List Word) (cells : List (Nat × Word)) (a b : Nat)
    (h : cellsWf erasedWord cells = true) (h1 : a ≤ b) (h2 : b < a + vs.length) :
    readCell erasedWord (tearWords n cells a vs) b = if Config.erasedAt n b then erasedWord else vs.getD (b - a) erasedWord := by
  induction vs generalizing cells a with
  | nil => simp at h2; omega
  | cons v vs ih =>
    simp only [List.length_cons] at h2
    by_cases hb : b = a
    · subst hb
      rw [tearWords, readCell_tearWords_outside _ _ _ _ _ (by omega), readCell_writeCell_same _ _ _ _ h]
      simp
    · rw [tearWords, ih _ (a + 1) (writeCell_wf _ _ _ _ h) (by omega) (by omega),
        show b - a = (b - (a + 1)) + 1 by omega, List.getD_cons_succ]

/-- Words the device left at another value touch no other word (log 10). -/
theorem readCell_applyDefects_other (ds : List Defect) (cells : List (Nat × Word)) (base a : Nat)
    (h : ∀ d ∈ ds, base + d.word ≠ a) : readCell erasedWord (applyDefects cells base ds) a = readCell erasedWord cells a := by
  induction ds generalizing cells with
  | nil => rfl
  | cons d ds ih =>
    rw [applyDefects, ih _ (fun x hx => h x (by simp [hx])),
      readCell_writeCell_ne _ _ _ _ _ (fun e => h d (by simp) e.symm)]

end Sys2Proof.Machine
end

