-- ==== Sys2Proof/Laws/State.lean ====
section
/-! SUPPORT. Reading back what was written: one lemma for each fixed-size collection, and for each small update of the state the field it writes (what it leaves is in Frames.lean). -/

namespace Sys2Proof.Machine

/-! ## Collections -/

@[simp] theorem Four.get_set_same {α : Type} (f : Four α) (i : Fin 4) (v : α) : (f.set i v).get i = v := by
  match i with
  | 0 | 1 | 2 | 3 => rfl

theorem Four.get_set_ne {α : Type} (f : Four α) (i j : Fin 4) (v : α) (h : j ≠ i) : (f.set i v).get j = f.get j := by
  match i, j with
  | 0, 0 | 1, 1 | 2, 2 | 3, 3 => exact absurd rfl h
  | 0, 1 | 0, 2 | 0, 3 | 1, 0 | 1, 2 | 1, 3 | 2, 0 | 2, 1 | 2, 3 | 3, 0 | 3, 1 | 3, 2 => rfl

@[simp] theorem Four.get_map {α β : Type} (g : α → β) (f : Four α) (i : Fin 4) : (f.map g).get i = g (f.get i) := by
  match i with
  | 0 | 1 | 2 | 3 => rfl

@[simp] theorem Four.get_build {β : Type} (g : Fin 4 → β) (i : Fin 4) : (Four.build g).get i = g i := by
  match i with
  | 0 | 1 | 2 | 3 => rfl

@[simp] theorem Four.get_const {α : Type} (v : α) (i : Fin 4) : (Four.const v).get i = v := by
  match i with
  | 0 | 1 | 2 | 3 => rfl

@[simp] theorem Eight.get_set_same {α : Type} (f : Eight α) (i : Fin 8) (v : α) : (f.set i v).get i = v := by
  match i with
  | 0 | 1 | 2 | 3 | 4 | 5 | 6 | 7 => rfl

theorem Eight.get_set_ne {α : Type} (f : Eight α) (i j : Fin 8) (v : α) (h : j ≠ i) : (f.set i v).get j = f.get j := by
  revert h
  match i, j with
  | 0, 0 | 0, 1 | 0, 2 | 0, 3 | 0, 4 | 0, 5 | 0, 6 | 0, 7 => intro h; first | rfl | exact absurd rfl h
  | 1, 0 | 1, 1 | 1, 2 | 1, 3 | 1, 4 | 1, 5 | 1, 6 | 1, 7 => intro h; first | rfl | exact absurd rfl h
  | 2, 0 | 2, 1 | 2, 2 | 2, 3 | 2, 4 | 2, 5 | 2, 6 | 2, 7 => intro h; first | rfl | exact absurd rfl h
  | 3, 0 | 3, 1 | 3, 2 | 3, 3 | 3, 4 | 3, 5 | 3, 6 | 3, 7 => intro h; first | rfl | exact absurd rfl h
  | 4, 0 | 4, 1 | 4, 2 | 4, 3 | 4, 4 | 4, 5 | 4, 6 | 4, 7 => intro h; first | rfl | exact absurd rfl h
  | 5, 0 | 5, 1 | 5, 2 | 5, 3 | 5, 4 | 5, 5 | 5, 6 | 5, 7 => intro h; first | rfl | exact absurd rfl h
  | 6, 0 | 6, 1 | 6, 2 | 6, 3 | 6, 4 | 6, 5 | 6, 6 | 6, 7 => intro h; first | rfl | exact absurd rfl h
  | 7, 0 | 7, 1 | 7, 2 | 7, 3 | 7, 4 | 7, 5 | 7, 6 | 7, 7 => intro h; first | rfl | exact absurd rfl h

@[simp] theorem Eight.get_map {α β : Type} (g : α → β) (f : Eight α) (i : Fin 8) : (f.map g).get i = g (f.get i) := by
  match i with
  | 0 | 1 | 2 | 3 | 4 | 5 | 6 | 7 => rfl

@[simp] theorem PerPort.get_set_same {α : Type} (f : PerPort α) (p : Port) (v : α) : (f.set p v).get p = v := by
  cases p <;> rfl

theorem PerPort.get_set_ne {α : Type} (f : PerPort α) (p q : Port) (v : α) (h : q ≠ p) : (f.set p v).get q = f.get q := by
  cases p <;> cases q <;> first | rfl | exact absurd rfl h

@[simp] theorem PerPort.set_set {α : Type} (f : PerPort α) (p : Port) (v w : α) : (f.set p v).set p w = f.set p w := by
  cases p <;> rfl

@[simp] theorem PerSource.get_set_same {α : Type} (f : PerSource α) (r : Source) (v : α) : (f.set r v).get r = v := by
  cases r <;> rfl

theorem PerSource.get_set_ne {α : Type} (f : PerSource α) (r x : Source) (v : α) (h : x ≠ r) : (f.set r v).get x = f.get x := by
  cases r <;> cases x <;> first | rfl | exact absurd rfl h

@[simp] theorem PerSource.get_build {α : Type} (g : Source → α) (r : Source) : (PerSource.build g).get r = g r := by
  cases r <;> rfl

/-! ## Small updates: the field written -/

@[simp] theorem State.mark_mir (s : State) : s.mark.mir = { s.mir with dirty := true } := rfl

@[simp] theorem State.markIf_mir (b : Bool) (s : State) : (s.markIf b).mir = { s.mir with dirty := s.mir.dirty || b } := rfl

@[simp] theorem State.raise_mir (c : Cause) (s : State) :
    (s.raise c).mir = { s.mir with attention := s.mir.attention.set c.ix .waiting, dirty := true } := rfl

@[simp] theorem State.setPort_ports (p : Port) (ps : PortState) (s : State) : (s.setPort p ps).ports = s.ports.set p ps := rfl

@[simp] theorem State.setCarry_ports (p : Port) (c : Carry) (s : State) :
    (s.setCarry p c).ports = s.ports.set p { s.ports.get p with carry := c } := rfl

@[simp] theorem State.answer_ports (p : Port) (r : Response) (s : State) :
    (s.answer p r).ports = s.ports.set p (PortState.unstall s.accepting { s.ports.get p with
      queue := (s.ports.get p).queue.tail, carry := .untaken, answers := (s.ports.get p).answers ++ [r] }) := rfl

@[simp] theorem State.present_waiting (who : Source) (q : DramReq) (s : State) :
    (s.present who q).dram = { s.dram with waiting := s.dram.waiting.set who (some q) } := rfl

@[simp] theorem State.setContext_ctx (p : Port) (c : ClassId) (x : Option OpenCtx) (s : State) :
    (s.setContext p c x).ctx = s.ctx.set p ((s.ctx.get p).set c x) := rfl

@[simp] theorem State.setRing_rings (c : ClassId) (r : ClassRing) (s : State) :
    (s.setRing c r).stg = { s.stg with rings := s.stg.rings.set c r } := rfl

@[simp] theorem State.setRing_mir (c : ClassId) (r : ClassRing) (s : State) : (s.setRing c r).mir = { s.mir with dirty := true } := rfl

@[simp] theorem State.setPower_pow (x : PowerState) (s : State) : (s.setPower x).pow = { s.pow with state := x } := rfl

@[simp] theorem State.setPower_mir (x : PowerState) (s : State) : (s.setPower x).mir = { s.mir with dirty := true } := rfl

@[simp] theorem State.awaitAborted_img (b : Burn) (s : State) :
    (s.awaitAborted b).img = { s.img with burn := some { b with aborting := true } } := rfl

/-- A job that the unit carries and that does not stop at once holds the burn until it is back (R97). -/
theorem State.stopBurn_carried (b : Burn) (s : State) (hb : s.img.burn = some b) (hj : b.act = .job)
    (hn : s.flash.current.any (·.job.stopsAtDrain) = false) (hc : s.flash.carriesBurn = true) : s.stopBurn = s.awaitAborted b := by
  simp [State.stopBurn, hb, hj, hn, hc]

/-- A job that the unit does not carry lets the slot go back at once (R97). -/
theorem State.stopBurn_waiting (b : Burn) (s : State) (hb : s.img.burn = some b) (hj : b.act = .job)
    (hn : s.flash.current.any (·.job.stopsAtDrain) = false) (hc : s.flash.carriesBurn = false) : s.stopBurn = s.burnRequeue b := by
  simp [State.stopBurn, hb, hj, hn, hc]

/-- The urgent sequence begins with closed rows; nothing else changes (R143). -/
theorem State.beginUrgent_eq (s : State) : s.beginUrgent =
    { s with dram := { s.dram with rows := closedRows s.prof.banks, refresh := .urgent } } := rfl

@[simp] theorem State.closeAll_dram (s : State) : s.closeAll.dram = { s.dram with rows := closedRows s.prof.banks } := rfl

@[simp] theorem State.reload_dram (s : State) :
    s.reload.dram = { s.dram with period := reloadPeriod s.prof s.pow.hot, timerOn := true } := rfl

@[simp] theorem State.resetSched_com (s : State) : s.resetSched.com = { s.com with sched := startOfRound s.prof } := rfl

@[simp] theorem State.setHeadBlock_com (block : Nat) (s : State) : (s.setHeadBlock block).com = { s.com with headBlock := block } := rfl

@[simp] theorem State.setHeadPage_com (page : Nat) (s : State) : (s.setHeadPage page).com = { s.com with headPage := page } := rfl

@[simp] theorem State.finishJob_flash (s : State) : s.finishJob.flash = s.flash.finish := rfl

/-! ## Equality, field by field -/

theorem State.eq_of_fields {a b : State}
    (h0 : a.pending = b.pending) (h1 : a.ports = b.ports) (h2 : a.ctx = b.ctx) (h3 : a.stg = b.stg) (h4 : a.com = b.com)
    (h5 : a.flash = b.flash) (h6 : a.img = b.img) (h7 : a.lock = b.lock) (h8 : a.dram = b.dram) (h9 : a.pow = b.pow)
    (h10 : a.con = b.con) (h11 : a.quiet = b.quiet) (h12 : a.mir = b.mir) (h13 : a.su = b.su) (h14 : a.prof = b.prof)
    (h15 : a.free = b.free) : a = b := by
  cases a; cases b; simp_all

theorem Staging.eq_of_fields {a b : Staging}
    (h0 : a.rings = b.rings) (h1 : a.queue = b.queue) (h2 : a.writing = b.writing) (h3 : a.last = b.last)
    (h4 : a.outbox = b.outbox) (h5 : a.lost = b.lost) : a = b := by
  cases a; cases b; simp_all

theorem Commit.eq_of_fields {a b : Commit}
    (h0 : a.queues = b.queues) (h1 : a.placedSeq = b.placedSeq) (h2 : a.placedPresent = b.placedPresent)
    (h3 : a.nextPage = b.nextPage) (h4 : a.sched = b.sched) (h5 : a.fetching = b.fetching) (h6 : a.held = b.held)
    (h7 : a.filling = b.filling) (h8 : a.closed = b.closed) (h9 : a.inflight = b.inflight) (h10 : a.headBlock = b.headBlock)
    (h11 : a.headPage = b.headPage) (h12 : a.ahead = b.ahead) (h13 : a.failed = b.failed) (h14 : a.skip = b.skip)
    (h15 : a.full = b.full) (h16 : a.upkeepHeld = b.upkeepHeld) (h17 : a.oldest = b.oldest) (h18 : a.begun = b.begun) : a = b := by
  cases a; cases b; simp_all

theorem Flash.eq_of_fields {a b : Flash}
    (h0 : a.cells = b.cells) (h1 : a.current = b.current) (h2 : a.suspended = b.suspended) (h3 : a.portReads = b.portReads)
    (h4 : a.journal = b.journal) (h5 : a.upkeep = b.upkeep) (h6 : a.burn = b.burn) (h7 : a.startup = b.startup) : a = b := by
  cases a; cases b; simp_all

theorem Image.eq_of_fields {a b : Image}
    (h0 : a.slots = b.slots) (h1 : a.waiting = b.waiting) (h2 : a.queue = b.queue) (h3 : a.burn = b.burn)
    (h4 : a.results = b.results) : a = b := by
  cases a; cases b; simp_all

theorem Dram.eq_of_fields {a b : Dram}
    (h0 : a.cells = b.cells) (h1 : a.mode = b.mode) (h2 : a.rows = b.rows) (h3 : a.passover = b.passover)
    (h4 : a.waiting = b.waiting) (h5 : a.grant = b.grant) (h6 : a.correction = b.correction) (h7 : a.corrected = b.corrected)
    (h8 : a.uncorrectable = b.uncorrectable) (h9 : a.refresh = b.refresh) (h10 : a.owed = b.owed)
    (h11 : a.timerOn = b.timerOn) (h12 : a.period = b.period) (h13 : a.lostRefresh = b.lostRefresh)
    (h14 : a.patrol = b.patrol) (h15 : a.scrub = b.scrub) (h16 : a.entryReq = b.entryReq) (h17 : a.exitReq = b.exitReq)
    (h18 : a.residency = b.residency) : a = b := by
  cases a; cases b; simp_all

theorem Power.eq_of_fields {a b : Power}
    (h0 : a.state = b.state) (h1 : a.entryPending = b.entryPending) (h2 : a.wakeCause = b.wakeCause)
    (h3 : a.wakeTimer = b.wakeTimer) (h4 : a.relapse = b.relapse) (h5 : a.time = b.time) (h6 : a.unset = b.unset)
    (h7 : a.coarse = b.coarse) (h8 : a.heldEvents = b.heldEvents) (h9 : a.heldExit = b.heldExit) (h10 : a.lpreq = b.lpreq)
    (h11 : a.pfw = b.pfw) (h12 : a.hot = b.hot) : a = b := by
  cases a; cases b; simp_all

theorem Contacts.eq_of_fields {a b : Contacts}
    (h0 : a.pin = b.pin) (h1 : a.tracked = b.tracked) (h2 : a.debounce = b.debounce) (h3 : a.slots = b.slots) : a = b := by
  cases a; cases b; simp_all

theorem Quiet.eq_of_fields {a b : Quiet}
    (h0 : a.remaining = b.remaining) (h1 : a.count = b.count) (h2 : a.pulse = b.pulse) : a = b := by
  cases a; cases b; simp_all

theorem Mirror.eq_of_fields {a b : Mirror}
    (h0 : a.dirty = b.dirty) (h1 : a.gen = b.gen) (h2 : a.last = b.last) (h3 : a.write = b.write)
    (h4 : a.attention = b.attention) : a = b := by
  cases a; cases b; simp_all

theorem StartUp.eq_of_fields {a b : StartUp}
    (h0 : a.supply = b.supply) (h1 : a.phase = b.phase) (h2 : a.cause = b.cause) (h3 : a.strap = b.strap)
    (h4 : a.dramHeld = b.dramHeld) (h5 : a.profState = b.profState) (h6 : a.release = b.release)
    (h7 : a.mountResult = b.mountResult) (h8 : a.warm = b.warm) (h9 : a.mount = b.mount) (h10 : a.recovery = b.recovery)
    (h11 : a.recovered = b.recovered) (h12 : a.ready = b.ready) : a = b := by
  cases a; cases b; simp_all

/-! ## Shared operations: all that each can do -/

/-- An answer takes the current request from the queue, adds one response, and the request is untaken again; a stalled request
may take the place that frees (R110). -/
theorem State.answer_port (p : Port) (r : Response) (s : State) :
    ((s.answer p r).ports.get p).answers = (s.ports.get p).answers ++ [r] ∧
    ((s.answer p r).ports.get p).carry = .untaken ∧
    ∃ more, ((s.answer p r).ports.get p).queue = (s.ports.get p).queue.tail ++ more ∧
      (s.ports.get p).bus = more ++ ((s.answer p r).ports.get p).bus ∧ more.length ≤ 1 := by
  simp only [State.answer_ports, PerPort.get_set_same, PortState.unstall]
  split
  · rename_i x rest hb
    split
    · refine ⟨rfl, rfl, [x], ?_, ?_, ?_⟩ <;> simp_all
    · exact ⟨rfl, rfl, [], by simp, by simp_all, by simp⟩
  · exact ⟨rfl, rfl, [], by simp, by simp_all, by simp⟩

/-- The current request is answered while the ports accept: it leaves, the first stalled request takes the place that frees,
and nothing else of the state changes (R110). -/
theorem State.answer_served (p : Port) (a : Response) (s : State) (r : Request) (rest : List Request)
    (hs : s.su.supply = .running) (hq : (s.ports.get p).queue = r :: rest) (hl : rest.length < 4) :
    s.answer p a = { s with ports := s.ports.set p ⟨rest ++ (s.ports.get p).bus.take 1, .untaken,
      (s.ports.get p).bus.drop 1, (s.ports.get p).answers ++ [a]⟩ } := by
  cases hb : (s.ports.get p).bus <;> simp [State.answer, State.setPort, PortState.unstall, State.accepting, hs, hq, hl, hb]

/-- All that latching a payload write can do: nothing, or the carry of the port's current request (R15, R171). -/
theorem State.latchPayload_cases (p : Port) (s : State) :
    s.latchPayload p = s ∨ s.latchPayload p = s.setCarry p .taken := by
  unfold State.latchPayload; split <;> simp

/-- A latched write still goes to its context, whatever the power state and the pulse (R119). -/
theorem State.taking_taken (p : Port) (s : State) (r : Request) (rest : List Request) (hs : s.su.supply = .running)
    (hc : (s.ports.get p).carry = .taken) (hq : (s.ports.get p).queue = r :: rest) :
    s.taking p = lookup s.prof.windows r := by
  simp [State.taking, State.currentRequest, hs, hc, hq]

/-- With room the outbox takes the record at its tail (R31). -/
theorem State.offer_room (r : Record) (s : State) (h : s.stg.outbox.length < 8) :
    s.offer r = { s with stg.outbox := s.stg.outbox ++ [r], mir.dirty := true } := by
  simp [State.offer, h]

/-- A full outbox discards the record into the LOST count and raises LOST (R34). -/
theorem State.offer_full (r : Record) (s : State) (h : 8 ≤ s.stg.outbox.length) :
    s.offer r = ({ s with stg.lost := saturate 65535 s.stg.lost 1 } : State).raise .lost := by
  simp [State.offer, Nat.not_lt.mpr h]

/-- An empty context abandons to nothing (R14). -/
theorem State.abandon_none (p : Port) (c : ClassId) (cause : Nat) (s : State) (h : s.context p c = none) :
    s.abandon p c cause = s := by
  simp [State.abandon, h]

/-- With a command at the front the step is its effect on the state with the rest of the queue. -/
theorem step_cons (c : Instr) (rest : List Instr) (s : State) :
    step { s with pending := c :: rest } = exec c { s with pending := rest } := rfl

/-- A block is blank when every word in it reads FFFFFFFFh (R62). -/
theorem blockBlank_iff (cells : List (Nat × Word)) (block : Nat) (h : cellsWf erasedWord cells = true) :
    blockBlank cells block = true ↔ ∀ c ∈ cells, inBlock block c.1 = false := by
  have key : ∀ (lo : Nat) (cs : List (Nat × Word)), cellsFrom erasedWord lo cs = true → ∀ c ∈ cs, c.2 ≠ erasedWord := by
    intro lo cs
    induction cs generalizing lo with
    | nil => simp
    | cons x rest ih =>
      obtain ⟨k, v⟩ := x
      simp only [cellsFrom, Bool.and_eq_true, decide_eq_true_eq]
      intro ⟨⟨_, hv⟩, hr⟩ c hc
      rcases List.mem_cons.mp hc with rfl | hc
      · exact hv
      · exact ih _ hr c hc
  have hne := key 0 cells h
  simp only [blockBlank, List.all_eq_true, Bool.or_eq_true, Bool.not_eq_true', beq_iff_eq]
  constructor
  · intro hb c hc
    exact (hb c hc).resolve_right (hne c hc)
  · intro hb c hc
    exact Or.inl (hb c hc)

end Sys2Proof.Machine
end

