-- ==== Sys2Proof/Laws/PerInstr.lean ====
section
/-! SUPPORT. Statements made for each command: no word of the table spells it (98_reader.md: no row gives bits), so putting a word in front of the queue never puts this command there. -/

namespace Sys2Proof.Laws.Spelling

/-- No word of any width spells the command, and a word put in front of a queue leaves the state as it was. -/
def Statement (i : Instr) : Prop :=
  ∀ nbits w : Nat, decodeTableWord nbits w ≠ some i ∧ ∀ s : Machine.State, s.withFetchWord nbits w = s

/-- The one reason: the decoder answers none. -/
theorem none_spelled (i : Instr) : Statement i := fun _ _ => ⟨nofun, fun _ => rfl⟩

theorem powerOn : Statement (Instr.powerOn) := none_spelled _
theorem powerLoss : Statement (Instr.powerLoss) := none_spelled _
theorem restartAsserted : Statement (Instr.restartAsserted) := none_spelled _
theorem restartReleased (strap : Bool) : Statement (Instr.restartReleased strap) := none_spelled _
theorem coldFillEnd : Statement (Instr.coldFillEnd) := none_spelled _
theorem recoveryReadComplete : Statement (Instr.recoveryReadComplete) := none_spelled _
theorem portRequestArrival (request : Request) : Statement (Instr.portRequestArrival request) := none_spelled _
theorem plainRead (port : Port) : Statement (Instr.plainRead port) := none_spelled _
theorem plainWrite (port : Port) : Statement (Instr.plainWrite port) := none_spelled _
theorem mirrorRead (port : Port) : Statement (Instr.mirrorRead port) := none_spelled _
theorem acknowledgeWrite (port : Port) : Statement (Instr.acknowledgeWrite port) := none_spelled _
theorem openingWord (port : Port) : Statement (Instr.openingWord port) := none_spelled _
theorem payloadWord (port : Port) : Statement (Instr.payloadWord port) := none_spelled _
theorem journalBurst (port : Port) : Statement (Instr.journalBurst port) := none_spelled _
theorem imageRead (port : Port) : Statement (Instr.imageRead port) := none_spelled _
theorem imageWrite (port : Port) : Statement (Instr.imageWrite port) := none_spelled _
theorem flashRead (port : Port) : Statement (Instr.flashRead port) := none_spelled _
theorem directionRefusal (port : Port) : Statement (Instr.directionRefusal port) := none_spelled _
theorem nowindow (port : Port) : Statement (Instr.nowindow port) := none_spelled _
theorem assemblyLimitExpiry (port : Port) (cls : ClassId) : Statement (Instr.assemblyLimitExpiry port cls) := none_spelled _
theorem ringWriteStart : Statement (Instr.ringWriteStart) := none_spelled _
theorem ringWriteComplete : Statement (Instr.ringWriteComplete) := none_spelled _
theorem outboxDeparture : Statement (Instr.outboxDeparture) := none_spelled _
theorem captureConsumed : Statement (Instr.captureConsumed) := none_spelled _
theorem schedulerChoice : Statement (Instr.schedulerChoice) := none_spelled _
theorem candidateReadComplete : Statement (Instr.candidateReadComplete) := none_spelled _
theorem flushDeadlineExpiry : Statement (Instr.flushDeadlineExpiry) := none_spelled _
theorem goInFlight : Statement (Instr.goInFlight) := none_spelled _
theorem upkeepEraseRequest : Statement (Instr.upkeepEraseRequest) := none_spelled _
theorem jobStart : Statement (Instr.jobStart) := none_spelled _
theorem readJobEnd : Statement (Instr.readJobEnd) := none_spelled _
theorem programEnd (defects : List Defect) : Statement (Instr.programEnd defects) := none_spelled _
theorem eraseEnd (defects : List Defect) : Statement (Instr.eraseEnd defects) := none_spelled _
theorem blankCheckEnd : Statement (Instr.blankCheckEnd) := none_spelled _
theorem verifyEnd : Statement (Instr.verifyEnd) := none_spelled _
theorem flashTimeout : Statement (Instr.flashTimeout) := none_spelled _
theorem eraseSuspension : Statement (Instr.eraseSuspension) := none_spelled _
theorem eraseAbortEnd : Statement (Instr.eraseAbortEnd) := none_spelled _
theorem sourceFetchComplete : Statement (Instr.sourceFetchComplete) := none_spelled _
theorem slotFillComplete : Statement (Instr.slotFillComplete) := none_spelled _
theorem imageIdleExpiry (slot : SlotId) : Statement (Instr.imageIdleExpiry slot) := none_spelled _
theorem burnStart : Statement (Instr.burnStart) := none_spelled _
theorem burnShadowReadComplete : Statement (Instr.burnShadowReadComplete) := none_spelled _
theorem arbiterChoice (upsets : List Upset) : Statement (Instr.arbiterChoice upsets) := none_spelled _
theorem portDramGrantEnd : Statement (Instr.portDramGrantEnd) := none_spelled _
theorem writeBackEnd : Statement (Instr.writeBackEnd) := none_spelled _
theorem patrolReadEnd : Statement (Instr.patrolReadEnd) := none_spelled _
theorem refreshTimerExpiry : Statement (Instr.refreshTimerExpiry) := none_spelled _
theorem urgentRefresh : Statement (Instr.urgentRefresh) := none_spelled _
theorem trickleRefresh : Statement (Instr.trickleRefresh) := none_spelled _
theorem refreshEnd : Statement (Instr.refreshEnd) := none_spelled _
theorem hotChange (level : Bool) : Statement (Instr.hotChange level) := none_spelled _
theorem selfRefreshEntered : Statement (Instr.selfRefreshEntered) := none_spelled _
theorem selfRefreshExit : Statement (Instr.selfRefreshExit) := none_spelled _
theorem lpreqAsserted : Statement (Instr.lpreqAsserted) := none_spelled _
theorem lpreqReleased : Statement (Instr.lpreqReleased) := none_spelled _
theorem pfwAsserted : Statement (Instr.pfwAsserted) := none_spelled _
theorem pfwReleased : Statement (Instr.pfwReleased) := none_spelled _
theorem relapseTimerExpiry : Statement (Instr.relapseTimerExpiry) := none_spelled _
theorem dozeAnnouncement : Statement (Instr.dozeAnnouncement) := none_spelled _
theorem dozeCommitPoint : Statement (Instr.dozeCommitPoint) := none_spelled _
theorem wakeTimerExpiry : Statement (Instr.wakeTimerExpiry) := none_spelled _
theorem drainEnd : Statement (Instr.drainEnd) := none_spelled _
theorem contactEdge (input : ClassId) (level : Bool) : Statement (Instr.contactEdge input level) := none_spelled _
theorem debounceEnd (input : ClassId) : Statement (Instr.debounceEnd input) := none_spelled _
theorem quietExpiry : Statement (Instr.quietExpiry) := none_spelled _
theorem svrstPulseEnd : Statement (Instr.svrstPulseEnd) := none_spelled _
theorem mirrorWriteStart : Statement (Instr.mirrorWriteStart) := none_spelled _
theorem mirrorWriteComplete : Statement (Instr.mirrorWriteComplete) := none_spelled _
theorem powerOnResetEnd (strap : Bool) : Statement (Instr.powerOnResetEnd strap) := none_spelled _
theorem powerGatingRefusal (port : Port) : Statement (Instr.powerGatingRefusal port) := none_spelled _
theorem portOrSplitRefusal (port : Port) : Statement (Instr.portOrSplitRefusal port) := none_spelled _
theorem mirrorWriteRefusal (port : Port) : Statement (Instr.mirrorWriteRefusal port) := none_spelled _
theorem journalOffsetRangeRefusal (port : Port) : Statement (Instr.journalOffsetRangeRefusal port) := none_spelled _
theorem partRequestGrantEnd : Statement (Instr.partRequestGrantEnd) := none_spelled _

end Sys2Proof.Laws.Spelling
end

