-- ==== Sys2Proof/Laws/Reads.lean ====
section
/-! SUPPORT. What a DRAM read does beyond its words (R132, R133, R136): one lemma for a clean read, one for a usable read, one for any read; the first Uncorrectable word; the end of a grant; taking a request. -/

namespace Sys2Proof.Machine

@[simp] theorem EccResult.bad_clean (w : Word) : (EccResult.clean w).bad = false := rfl
@[simp] theorem EccResult.bad_corrected (w : Word) : (EccResult.corrected w).bad = false := rfl
@[simp] theorem EccResult.bad_uncorrectable (x : BitVec 7) : (EccResult.uncorrectable x).bad = true := rfl

theorem clean_not_bad (rs : List (Nat × EccResult)) (h : ∀ x ∈ rs, ∃ w, x.2 = .clean w) : ∀ x ∈ rs, x.2.bad = false := by
  intro x hx
  obtain ⟨w, hw⟩ := h x hx
  rw [hw, EccResult.bad_clean]

theorem anyBad_false (rs : List (Nat × EccResult)) (h : ∀ x ∈ rs, x.2.bad = false) : anyBad rs = false := by
  simp only [anyBad, List.any_eq_false]
  exact fun x hx => by simp [h x hx]

theorem anyBad_true (rs : List (Nat × EccResult)) (h : ∃ x ∈ rs, x.2.bad = true) : anyBad rs = true := by
  simpa only [anyBad, List.any_eq_true] using h

theorem firstBad_none (rs : List (Nat × EccResult)) (h : ∀ x ∈ rs, x.2.bad = false) : firstBad rs = none := by
  induction rs with
  | nil => rfl
  | cons x rs ih =>
    obtain ⟨off, e⟩ := x
    have hx := h (off, e) (by simp)
    have ih := ih (fun y hy => h y (by simp [hy]))
    cases e with
    | clean w => exact ih
    | corrected w => exact ih
    | uncorrectable y => exact absurd hx (by simp)

theorem firstBad_some (rs : List (Nat × EccResult)) (h : ∃ x ∈ rs, x.2.bad = true) : ∃ off syn, firstBad rs = some (off, syn) := by
  induction rs with
  | nil => simp at h
  | cons x rs ih =>
    obtain ⟨off, e⟩ := x
    obtain ⟨y, hy, hb⟩ := h
    cases e with
    | uncorrectable z => exact ⟨off, z, rfl⟩
    | clean w =>
      rcases List.mem_cons.mp hy with rfl | hy
      · exact absurd hb (by simp)
      · exact ih ⟨y, hy, hb⟩
    | corrected w =>
      rcases List.mem_cons.mp hy with rfl | hy
      · exact absurd hb (by simp)
      · exact ih ⟨y, hy, hb⟩

/-- A read with every word Clean has no effect (R132). -/
theorem eccRead_clean (offers : Bool) (rs : List (Nat × EccResult)) (s : State) (h : ∀ x ∈ rs, ∃ w, x.2 = .clean w) :
    State.eccRead offers rs s = s := by
  unfold State.eccRead
  induction rs generalizing s with
  | nil => rfl
  | cons x rs ih =>
    obtain ⟨w, hw⟩ := h x (by simp)
    simp only [List.foldl]
    rw [show State.eccWord offers s x = s by simp [State.eccWord, hw]]
    exact ih s (fun y hy => h y (by simp [hy]))

/-- A read with no Uncorrectable word raises the corrected count by its Corrected words, and may offer write-backs (R132, R133). -/
theorem eccRead_usable (offers : Bool) (rs : List (Nat × EccResult)) (s : State) (h : ∀ x ∈ rs, x.2.bad = false) :
    State.eccRead offers rs s = { s with
      dram.corrected := (State.eccRead offers rs s).dram.corrected
      dram.correction := (State.eccRead offers rs s).dram.correction
      mir.dirty := (State.eccRead offers rs s).mir.dirty } ∧
    (s.dram.corrected ≤ 65535 → (State.eccRead offers rs s).dram.corrected =
      min 65535 (s.dram.corrected + (rs.filter (fun x => match x.2 with | .corrected _ => true | _ => false)).length)) ∧
    (offers = false → (State.eccRead offers rs s).dram.correction = s.dram.correction) := by
  unfold State.eccRead
  induction rs generalizing s with
  | nil => exact ⟨rfl, fun hc => by simp <;> omega, fun _ => rfl⟩
  | cons x rs ih =>
    have hx := h x (by simp)
    simp only [List.foldl]
    obtain ⟨i1, i2, i3⟩ := ih (State.eccWord offers s x) (fun y hy => h y (by simp [hy]))
    obtain ⟨off, e⟩ := x
    cases e with
    | clean w => simpa [State.eccWord] using ⟨i1, i2, i3⟩
    | corrected w =>
      simp only [State.eccWord] at i1 i2 i3 ⊢
      refine ⟨i1, fun hc => ?_, fun ho => by subst ho; exact i3 rfl⟩
      rw [i2 (by simp [saturate] <;> omega)]
      simp [saturate]
      omega
    | uncorrectable y => exact absurd hx (by simp)

/-- A read changes the two counts, the correction queue, dirty and the attention set, and no other field; its Uncorrectable
words raise their count and FAULT (R132, R136). -/
theorem eccRead_any (offers : Bool) (rs : List (Nat × EccResult)) (s : State) :
    State.eccRead offers rs s = { s with
      dram.corrected := (State.eccRead offers rs s).dram.corrected
      dram.correction := (State.eccRead offers rs s).dram.correction
      dram.uncorrectable := (State.eccRead offers rs s).dram.uncorrectable
      mir.dirty := (State.eccRead offers rs s).mir.dirty
      mir.attention := (State.eccRead offers rs s).mir.attention } ∧
    (s.dram.uncorrectable ≤ 65535 → (State.eccRead offers rs s).dram.uncorrectable =
      min 65535 (s.dram.uncorrectable + (rs.filter (·.2.bad)).length)) ∧
    ((s.mir.attention.get Cause.fault.ix = .waiting ∧ s.mir.dirty = true ∨ ∃ x ∈ rs, x.2.bad = true) →
      (State.eccRead offers rs s).mir.attention.get Cause.fault.ix = .waiting ∧ (State.eccRead offers rs s).mir.dirty = true) := by
  unfold State.eccRead
  induction rs generalizing s with
  | nil => exact ⟨rfl, fun hc => by simp; omega, fun ho => ho.resolve_right (by simp)⟩
  | cons x rs ih =>
    simp only [List.foldl]
    obtain ⟨i1, i2, i3⟩ := ih (State.eccWord offers s x)
    obtain ⟨off, e⟩ := x
    have later (hb : ∃ y ∈ (off, e) :: rs, y.2.bad = true) (he : e.bad = false) : ∃ y ∈ rs, y.2.bad = true := by
      obtain ⟨y, hy, hb⟩ := hb
      rcases List.mem_cons.mp hy with rfl | hy
      · exact absurd hb (by simp [he])
      · exact ⟨y, hy, hb⟩
    cases e with
    | clean w =>
      rw [show State.eccWord offers s (off, .clean w) = s from rfl] at i1 i2 i3 ⊢
      exact ⟨i1, by simpa using i2, fun hb => i3 (hb.imp_right (fun h => later h rfl))⟩
    | corrected w =>
      refine ⟨i1, fun hc => ?_, fun hb => i3 ?_⟩
      · rw [i2 (by simpa [State.eccWord] using hc)]
        simp [State.eccWord]
      · exact hb.imp (fun h => ⟨h.1, by simp [State.eccWord, h.2]⟩) (fun h => later h rfl)
    | uncorrectable y =>
      refine ⟨i1, fun hc => ?_, fun _ => i3 (.inl (by simp [State.eccWord]))⟩
      have hd : (State.eccWord offers s (off, .uncorrectable y)).dram.uncorrectable = min 65535 (s.dram.uncorrectable + 1) := rfl
      rw [List.filter_cons_of_pos (by simp), List.length_cons, i2 (by omega), hd]
      omega

/-- A read's Corrected words join the correction queue in address order, where their grant offers them (R133). -/
theorem eccRead_correction (offers : Bool) (rs : List (Nat × EccResult)) (s : State) :
    (State.eccRead offers rs s).dram.correction = if offers then
      rs.foldl (fun q x => match x.2 with | .corrected _ => offerCorrection q x.1 | _ => q) s.dram.correction
      else s.dram.correction := by
  unfold State.eccRead
  induction rs generalizing s with
  | nil => cases offers <;> rfl
  | cons x rs ih =>
    rw [List.foldl_cons, ih]
    obtain ⟨off, e⟩ := x
    cases e <;> cases offers <;> simp [State.eccWord, State.raise]

/-- Every Corrected word of a read is counted, up to the saturation value (R132). -/
theorem eccRead_corrected (offers : Bool) (rs : List (Nat × EccResult)) (s : State) (h : s.dram.corrected ≤ 65535) :
    (State.eccRead offers rs s).dram.corrected =
      min 65535 (s.dram.corrected + (rs.filter (fun x => match x.2 with | .corrected _ => true | _ => false)).length) := by
  unfold State.eccRead
  induction rs generalizing s with
  | nil => simp; omega
  | cons x rs ih =>
    obtain ⟨off, e⟩ := x
    rw [List.foldl_cons, ih _ (by cases e <;> simp [State.eccWord, State.raise, saturate] <;> omega)]
    cases e <;> simp [State.eccWord, State.raise, saturate] <;> omega

@[simp] theorem eccRead_entryReq (offers : Bool) (rs : List (Nat × EccResult)) (s : State) :
    (State.eccRead offers rs s).dram.entryReq = s.dram.entryReq := by
  rw [(eccRead_any offers rs s).1]

@[simp] theorem carryOut_entryReq (q : DramReq) (s : State) : (s.carryOut q).dram.entryReq = s.dram.entryReq :=
  eccRead_entryReq _ _ _

/-- An entry that is not requested, or that waits for the ring write queue, does nothing. -/
theorem beginEntry_waits (s : State) (h : s.dram.entryReq = none ∨ s.stg.queue ≠ []) : s.beginEntry = s := by
  rcases h with h | h <;> simp [State.beginEntry, State.entryDue, h]

/-- Outside a self-refresh entry that goes on the end of a grant only frees the device. -/
theorem endGrant_frees (s : State) (h : s.dram.entryReq = none ∨ s.stg.queue ≠ []) : s.endGrant = { s with dram.grant := none } :=
  beginEntry_waits { s with dram.grant := none } h
theorem endGrant_plain (s : State) (h : s.dram.entryReq = none) : s.endGrant = { s with dram.grant := none } :=
  endGrant_frees s (Or.inl h)

/-- A current request that passes gating goes where lookup says (R110, R114). -/
theorem taking_served (s : State) (p : Port) (r : Request) (rest : List Request) (hs : s.su.supply = .running)
    (hc : (s.ports.get p).carry = .untaken) (hq : (s.ports.get p).queue = r :: rest) (hg : s.gate p = .serve) :
    s.taking p = lookup s.prof.windows r := by
  simp [State.taking, State.dispatch, hs, hc, State.currentRequest, hq, hg]

theorem front_cons (s : State) (p : Port) (r : Request) (rest : List Request) (hq : (s.ports.get p).queue = r :: rest) :
    s.front p = r := by
  simp [State.front, State.currentRequest, hq]

/-- The grant of a port with the way its request stands. -/
theorem portGrant_source (s : State) (p : Port) (q : DramReq) (hg : s.dram.grant = some (.source (Source.ofPort p) q)) :
    s.portGrant p = some ((s.ports.get p).carry, q) := by
  simp [State.portGrant, hg]

/-- The end of a port's grant is that port's. -/
theorem execPortDramGrantEnd_port (s : State) (p : Port) (q : DramReq)
    (hg : s.dram.grant = some (.source (Source.ofPort p) q)) : exec .portDramGrantEnd s = .next (s.portGrantEnd p) := by
  cases p <;> simp [exec, execPortDramGrantEnd, hg, Source.ofPort]

end Sys2Proof.Machine
end

