-- ==== Sys2Proof/Tests/Slice0.lean ====
section
/-! SUPPORT. Tests: ill-formed commands refused, the manual's worked values, and for each obligation with hypotheses a state and operands that meet them. -/

namespace Sys2Proof.Machine

set_option Elab.async false

open Sys2Proof Sys2Proof.Machine Sys2Proof.Machine.Claims

/-! ## States for the tests -/

/-- The safe profile with two JOURNAL windows, a class 1 of 32 slots, two contact inputs and a quiet interval. -/
def prof1 : Profile :=
  { safeProfile with
    quietInterval := 60
    contacts := { safeProfile.contacts with c0 := ⟨.both, 20, true⟩, c1 := ⟨.rise, 0, false⟩ }
    classes := { safeProfile.classes with c1 := ⟨true, 0x05000000, 32, true, true, 1, 64⟩ }
    windows := [⟨true, 0x70000000, 64, true, true, .journal, 0⟩, ⟨true, 0x70000040, 64, true, false, .journal, 1⟩] ++ safeWindows }

/-- In RUN with the DRAM usable and the commit side empty. -/
def run0 : State :=
  { State.reset with
    prof := prof1
    dram := { resetDram 8 [] .usable with timerOn := true }
    pow := { resetPower false false false with state := .run, unset := false }
    com := { resetCommit prof1 with headPage := 3, begun := true, nextPage := 7#32 }
    su := { resetStartUp .running with phase := .done, dramHeld := true, ready := true } }

/-- A read of a burst, and writes of one word or of a burst. -/
def rd (p : Port) (addr : Word) (len : Nat) : Request := ⟨p, false, addr, len, 0xF#4, []⟩
def wr (p : Port) (addr : Word) (en : BitVec 4) (data : List Word) : Request := ⟨p, true, addr, data.length, en, data⟩

/-- The state with a current request of a port, carried in a way. -/
def State.carrying (s : State) (p : Port) (c : Carry) (r : Request) : State := { s with ports := s.ports.set p ⟨[r], c, [], []⟩ }

/-- The state in another power state. -/
def State.inPower (s : State) (p : PowerState) : State := { s with pow := { s.pow with state := p } }

/-- The state with a grant in progress. -/
def State.grants (s : State) (g : Grant) : State := { s with dram := { s.dram with grant := some g } }

/-- The state with a job at the device. -/
def State.runs (s : State) (j : Job) : State := { s with flash := { s.flash with current := some ⟨j, 0, 0, false, false⟩ } }

/-- An open context of class 1 with one of two words received. -/
def open1 : OpenCtx := ⟨0x31#8, 2, true, [some 5#32] ++ List.replicate 11 none, 7⟩
def State.opens (s : State) (p : Port) (x : OpenCtx) : State := { s with ctx := s.ctx.set p ((s.ctx.get p).set 1 (some x)) }

/-- A record, and what the Commit Engine holds of it. -/
def rec1 : Record := ⟨0x31#8, false, .svp, ⟨9#48, false, false, false⟩, [7#32, 8#32]⟩
def placed1 : Placed := ⟨1, 0#32, false, packRecord rec1 0#32⟩
def closed1 : ClosedBuf := ⟨[placed1], ⟨0#32, 0#32, 0#32, 0#32⟩, ⟨false, true, false, false⟩, .fit⟩
def flight1 : InFlight := ⟨closed1, 6#32, 256, 3, false, false⟩

/-- What an outcome is. -/
def isIllFormed : Host.Outcome State Fault Refusal → Bool
  | .refused .illFormed => true
  | _ => false
def nextOf : Host.Outcome State Fault Refusal → Option State
  | .next t => some t
  | _ => none

/-! ## Ill-formed commands are refused -/

theorem test_illFormed_requests : ∀ r ∈ [rd .svp 2#32 1, rd .svp 0#32 3, wr .mnp 0#32 0xF#4 [], ⟨.svp, false, 0#32, 1, 0xF#4, [0#32]⟩],
    r.wf = false ∧ isIllFormed (exec (.portRequestArrival r) run0) = true := by decide +kernel
theorem test_wellFormed_requests : ∀ l ∈ [1, 2, 4, 8], (rd .svp 0xFFFFFFFC#32 l).wf = true := by decide +kernel
theorem test_illFormed_defects : isIllFormed (exec (.programEnd [⟨64, 0#32⟩]) run0) = true ∧
    isIllFormed (exec (.eraseEnd [⟨1024, 0#32⟩]) run0) = true ∧ Defect.wf 64 ⟨63, 0#32⟩ = true := by decide +kernel
theorem test_illFormed_upset : isIllFormed (exec (.arbiterChoice [⟨268435456, 1#39⟩]) run0) = true ∧
    Upset.wf ⟨268435455, 1#39⟩ = true := by decide +kernel

/-! ## Worked values of the manual -/

/-- 4.8: the bytes 01h, 02h, FFh; a blank page and a blank block. -/
theorem test_checksum : [checksum 0#16 [1#8], checksum 0#16 [1#8, 2#8], checksum 0#16 [1#8, 2#8, 0xFF#8],
    checksum 0#16 (List.replicate 256 0xFF#8), checksum 0#16 []] = [0xFFFF#16, 0xFFFD#16, 0xFEFE#16, 0x0100#16, 0#16] := by decide +kernel
theorem test_checksum_block : checksum 0#16 (List.replicate 4096 0xFF#8) = 0x1000#16 := by decide +kernel
/-- 8.8: word offset, bank, row and column of the seven grants, and the table after them. -/
theorem test_mapping : [0x04010E80, 0x00002000, 0x00005000, 0x05000000, 0x04004000].map (fun b =>
    (bankOf prof1 (b / 4), rowOf prof1 (b / 4), columnOf prof1 (b / 4))) =
    [(0, 2050, 928), (2, 0, 0), (5, 0, 0), (0, 2560, 0), (4, 2048, 0)] := by decide +kernel
theorem test_openRows :
    let t := [0x010043A0, 0x800, 0x1400, 0x01004390, 0x01400000, 0x01001000, 0x1C00].foldl
      (fun t w => touchRows t (accesses prof1 w 1)) (closedRows 8)
    t.toList.map (fun e => (e.bank, e.row)) =
      [(some 0, some 2560), (some 7, some 0), (some 5, some 0), (some 4, some 2048)] ∧ t.c2.rank = 4 := by decide +kernel
/-- 8.9: the passover counts of SVP, MNP and BURN over eleven choices. -/
def wspChoices : Nat → Dram → List (Option Source)
  | 0, _ => []
  | n + 1, d =>
    let p : Profile := { prof1 with policy := .wsp, weights := ⟨1, 14, 12, 1, 13, 1⟩ }
    match chooseSource p d with
    | some r => some r :: wspChoices n { d with passover := passoversAfter p d r }
    | none => [none]
theorem test_wsp : wspChoices 11 { run0.dram with waiting := ⟨none, some (.read 0 1), some (.read 0 1), none, some (.read 0 16), none⟩ } =
    [.svp, .svp, .svp, .burn, .mnp, .svp, .svp, .burn, .svp, .mnp, .svp].map some := by decide +kernel
/-- R132: a flipped data bit, check bit and c6 are corrected; two flips are not. -/
theorem test_ecc : [0, 31, 32, 37, 38].map (fun i => readCode (flipped (encodeWord 0xDEADBEEF#32) i)) =
    List.replicate 5 (.corrected 0xDEADBEEF#32) ∧ (readCode (flipped (flipped (encodeWord 0xDEADBEEF#32) 3) 38)).bad = true := by
  decide +kernel
/-- 11.5: FAULT recorded at 40 goes with the acknowledge of 41 while a write of 42 is in progress; BURN recorded at 42 stays. -/
theorem test_acknowledge :
    let m : Mirror := ⟨false, 42#32, some 41#32, some ⟨[], 3⟩, ⟨.absent, .absent, .absent, .recorded 42#32, .recorded 40#32, .absent, .absent, .absent⟩⟩
    (State.acknowledge 41#32 { run0 with mir := m }).mir.attention.toList.map AttState.present =
      [false, false, false, true, false, false, false, false] := by decide +kernel
/-- A page whose word 0 reads FFFFFFFFh is neither erased nor valid (R191), unless every word does. -/
theorem test_classify : let f : InFlight := { flight1 with pageSeq := 0xFFFFFFFF#32 }
    wordAt (pageWords f) 0 = 0xFFFFFFFF#32 ∧ pageValid (pageWords f) = true ∧ classifyPage (pageWords f) = .neither ∧
    classifyPage (pageWords flight1) = .valid ⟨6#32, f.buf.placed, f.buf.mask⟩ ∧
    classifyPage (List.replicate 64 0xFFFFFFFF#32) = .erased := by decide +kernel
/-- The header read of upkeep takes the page sequence of every page whose check matches, FFFFFFFFh included (R57); of an erased page it
keeps the value of a begun journal, and of any other page it has none. -/
theorem test_oldestAfter : let c : Commit := { run0.com with begun := true, oldest := some 9#32 }
    c.oldestAfter (pageWords { flight1 with pageSeq := 0xFFFFFFFF#32 }) = some 0xFFFFFFFF#32 ∧
    c.oldestAfter (pageWords flight1) = some 6#32 ∧ c.oldestAfter (List.replicate 64 0xFFFFFFFF#32) = some 9#32 ∧
    ({ c with begun := false } : Commit).oldestAfter (List.replicate 64 0xFFFFFFFF#32) = none ∧
    c.oldestAfter ((pageWords flight1).set 5 0#32) = none := by decide +kernel
/-- 12.3: the tail of 1200 with one erased-ahead block is 1202; the ring wraps from 2047 to 256. -/
theorem test_tail : ({ run0.com with headBlock := 1200, ahead := 1 } : Commit).tail = 1202 ∧
    ({ run0.com with headBlock := 2047, ahead := 0, skip := [256] } : Commit).tail = 257 := by decide +kernel

/-- 7.7: lookup in the safe profile. -/
theorem test_lookup : [rd .svp 0x0400FFF0#32 4, rd .svp 0x0400FFF0#32 8, wr .svp 0x04000040#32 0xF#4 [1#32],
      wr .svp 0x041000F8#32 0xF#4 [1#32], wr .svp 0x041000F8#32 0xF#4 [1#32, 2#32], rd .svp 0x60000FF0#32 8, rd .svp 0x60001FE0#32 8,
      rd .svp 0x70000000#32 1, wr .svp 0x60100000#32 0xF#4 [1#32]].map (lookup safeWindows) =
    [.plainRead 0x01003FFC, .portOrSplit .split, .direction, .ackWrite 0x0100103E, .mirrorRefusal .protect, .portOrSplit .split,
      .imageRead 1 1016, .nowindow, .direction] := by decide +kernel

/-! ## Witnesses: for each obligation with hypotheses, a state and operands that meet them -/

theorem witness_IdleStep : run0.pending = [] ∧ run0.su.supply ≠ .off ∧ run0.clockRuns = true ∧
    ({ run0.inPower .doze with pow.wakeTimer := some 899999 } : State).pow.wakeTimer = some 899999 ∧
    (run0.inPower .doze).clockRuns = false ∧ ({ run0 with quiet := ⟨some 1, 0, some 9⟩ } : State).quiet.pulse = some 9 ∧
    (run0.opens .svp open1).context .svp 1 = some open1 ∧ run0.prof.assemblyLimit ≠ 0 := by decide +kernel
/-- A timer of each kind that runs, and one at its limit. -/
theorem witness_IdleStep_timers : ({ run0 with com.filling := some ⟨[placed1], 1000⟩ } : State).com.fillingHolds = true ∧
    run0.com.fillingHolds = false ∧ (run0.runs (.upErase 300)).flash.current = some ⟨.upErase 300, 0, 0, false, false⟩ ∧
    ({ run0 with img.slots.e0 := .opened 33 29999 } : State).img.slots.get 0 = .opened 33 29999 ∧ run0.prof.imageIdle = 30 ∧
    ({ run0 with con.debounce.c0 := some 20 } : State).con.debounce.get 0 = some 20 ∧ (run0.prof.contacts.get 0).debounce = 20 ∧
    ({ run0 with dram.mode := .selfRefresh } : State).dram.mode = .selfRefresh ∧ run0.pow.state ≠ .starting ∧
    ({ run0 with prof.assemblyLimit := 0 } : State).prof.assemblyLimit = 0 ∧ State.reset.clockRuns = false := by decide +kernel
theorem witness_steps : run0.memoryWf = true ∧ run0.bounded = true ∧ rowsWf run0.dram.rows = true ∧ run0.lockWf = true ∧
    run0.stg.outbox.length ≤ 8 ∧ run0.stg.lost = 0 ∧ nextOf (step run0) = some (run0.pass 1) := by decide +kernel
/-- The last blank check of a field release clears the store. -/
def release255 : State :=
  { run0.runs (.suBlank 255) with
    su := { run0.su with phase := .release }, lock := ⟨true, false, false, true, 3, 9, 4⟩, pending := [.blankCheckEnd] }
theorem witness_LockStoreOnlyTightens : release255.lockWf = true ∧
    (nextOf (step release255)).map (·.lock) = some ⟨false, false, false, false, 1, 255, 0⟩ := by decide +kernel
theorem witness_CommandsKeepTheQueue : (nextOf (exec (.hotChange true) run0)).isSome = true := by decide +kernel

/-! ### Ports -/

theorem witness_Arrival : (rd .mnp 0#32 1).wf = true ∧ run0.su.supply = .running ∧ (run0.ports.get .mnp).queue.length < 4 ∧
    (run0.inPower .doze).dram.entryReq ≠ some .doze ∧ ({ run0 with dram.entryReq := some .doze } : State).dram.entryReq = some .doze ∧
    ({ run0 with ports.svp.queue := List.replicate 4 (rd .svp 0#32 1) } : State).ports.svp.queue.length = 4 ∧
    (rd .svp 1#32 1).wf = false := by decide +kernel
theorem witness_Gating (p : Port) : Current (run0.carrying p .untaken (rd p 0#32 1)) p (rd p 0#32 1) [] ∧
    (run0.carrying p .untaken (rd p 0#32 1)).svrst = false ∧ ({ run0 with quiet.pulse := some 0 } : State).svrst = true ∧
    ∀ w ∈ [PowerState.starting, .settling, .doze, .pfHalt],
      Current ((run0.inPower w).carrying p .untaken (rd p 0#32 1)) p (rd p 0#32 1) [] := by
  unfold Current; cases p <;> decide +kernel
theorem witness_Lookup : (findWindow prof1.windows 0x7000007C).isSome = true ∧ (findWindow prof1.windows 0x70000080).isSome = false ∧
    lookup prof1.windows (wr .svp 0x70000040#32 0xF#4 [0#32]) = .opening 1 ∧
    lookup prof1.windows (wr .svp 0x70000044#32 0xF#4 [0#32]) = .payload 1 1 ∧
    lookup prof1.windows (wr .svp 0x70000070#32 0xF#4 [0#32]) = .payload 1 12 ∧
    lookup prof1.windows (wr .svp 0x70000074#32 0xF#4 [0#32]) = .offRange ∧
    lookup prof1.windows (wr .svp 0x70000040#32 0xF#4 [0#32, 0#32]) = .burst 1 0 ∧
    lookup prof1.windows (wr .svp 0x041000F4#32 0xF#4 [0#32]) = .mirrorRefusal .protect ∧
    lookup prof1.windows (wr .svp 0x041000F8#32 0x7#4 [0#32]) = .mirrorRefusal .width := by decide +kernel
theorem witness_Refusals : run0.gate .svp = .serve ∧ run0.gate .mnp = .serve ∧
    lookup prof1.windows (rd .mnp 0x80000000#32 1) = .nowindow ∧ lookup prof1.windows (wr .mnp 0x70000040#32 0xF#4 [0#32]) = .portOrSplit .port ∧
    lookup prof1.windows (wr .mnp 0x60100000#32 0xF#4 [0#32]) = .direction ∧
    Current (run0.carrying .mnp .untaken (rd .mnp 0x80000000#32 1)) .mnp (rd .mnp 0x80000000#32 1) [] := by
  unfold Current; decide +kernel
theorem witness_PortAccess : lookup prof1.windows (rd .svp 0#32 8) = .plainRead 0 ∧
    lookup prof1.windows (wr .svp 0x100#32 0x1#4 [9#32]) = .plainWrite 64 ∧
    lookup prof1.windows (rd .mnp 0x041000FC#32 1) = .mirrorRead 0x0100103F ∧
    lookup prof1.windows (wr .mnp 0x041000F8#32 0xF#4 [9#32]) = .ackWrite 0x0100103E ∧ run0.portGrant .mnp = none := by decide +kernel
/-- A plain access of a port whose grant is in progress. -/
def granted (p : Port) (r : Request) (q : DramReq) : State := (run0.carrying p .plain r).grants (.source (Source.ofPort p) q)
theorem witness_PortGrantEnd : let r := rd .svp 0#32 2
    let w := wr .mnp 0x10#32 0x1#4 [9#32]
    Carried (granted .svp r (.read 0 2)) .svp .plain r [] ∧ (granted .svp r (.read 0 2)).memoryWf = true ∧
    Carried (granted .mnp w (.rmw 4 9#32 0x1#4)) .mnp .plain w [] ∧ (readCode 0#39).bad = false ∧ (readCode 3#39).bad = true ∧
    (readDram [(1, 1#39)] 0 2).all (fun x => !x.2.bad) = true ∧ correctedCount (readDram [(1, 1#39)] 0 2) = 1 ∧
    badCount (readDram [(1, 3#39)] 0 2) = 1 := by
  unfold Carried; decide +kernel
theorem witness_Acknowledge : let w := wr .svp 0x041000F8#32 0xF#4 [41#32]
    Carried ((run0.carrying .svp .ack w).grants (.source .svp (.write 0x0100103E [41#32]))) .svp .ack w [] ∧ w.data = [41#32] ∧
    run0.dram.entryReq = none ∧ run0.memoryWf = true := by
  unfold Carried; decide +kernel

/-! ### Journal and staging -/

theorem witness_OpeningWord : let r := wr .svp 0x70000040#32 0xF#4 [0x00001231#32]
    Current (run0.carrying .svp .untaken r) .svp r [] ∧ (run0.carrying .svp .untaken r).gate .svp = .serve ∧
    lookup run0.prof.windows r = .opening 1 ∧ run0.context .svp 1 = none ∧ (run0.opens .svp open1).context .svp 1 = some open1 ∧
    (run0.prof.classes.get 1).admits .svp = true ∧ run0.unclaimed 1 = 32 ∧ run0.unclaimed 0 = 256 ∧
    (kindOf (wordAt r.data 0), lengthOf (wordAt r.data 0), urgentOf (wordAt r.data 0)) = (0x31#8, 2, true) ∧
    (kindOf 0x000002EE#32, lengthOf 0x000002EE#32) = (0xEE#8, 2) ∧ lengthOf 0x00000C01#32 = 12 ∧ lengthOf 0x00000D01#32 = 13 ∧
    ({ run0 with stg.rings.c0.staged := 252 } : State).unclaimed 0 = 4 := by
  unfold Current; decide +kernel
theorem witness_PayloadWord : let r := wr .svp 0x70000048#32 0xF#4 [6#32]
    let s := (run0.opens .svp open1).carrying .svp .untaken r
    Current s .svp r [] ∧ s.gate .svp = .serve ∧ lookup s.prof.windows r = .payload 1 2 ∧ s.context .svp 1 = some open1 ∧
    (open1.words.set 1 (some 6#32)).take 2 = [5#32, 6#32].map some ∧ open1.n < 3 := by
  unfold Current; decide +kernel
theorem witness_JournalBurst : let r := wr .svp 0x70000040#32 0xF#4 [0x00000131#32, 6#32]
    Current (run0.carrying .svp .untaken r) .svp r [] ∧ run0.gate .svp = .serve ∧ lookup run0.prof.windows r = .burst 1 0 ∧
    openingRefusal (run0.prof.classes.get 1) .svp true 0x00000131#32 = none ∧ openingNeeds 1 ≤ run0.unclaimed 1 ∧
    [6#32].length = lengthOf 0x00000131#32 ∧ (State.journalWords .svp 1 0 r.data run0).1 = none ∧
    (State.journalWord .svp 1 13 true 0#32 run0).1 = some .range := by
  unfold Current; decide +kernel
theorem witness_AssemblyLimit : (run0.opens .mnp open1).context .mnp 1 = some open1 ∧ run0.clockRuns = true ∧
    run0.prof.assemblyLimit = 20 ∧ ({ run0 with prof.assemblyLimit := 0 } : State).prof.assemblyLimit = 0 := by decide +kernel
/-- A completed record at the front of the ring write queue. -/
def ringReady : State := { run0 with stg.queue := [⟨1, some .svp, rec1⟩], stg.rings.c1.reserved := 1 }
theorem witness_RingWriteStart : ringReady.stg.queue = [⟨1, some .svp, rec1⟩] ∧ ringReady.stg.writing = none ∧
    ringReady.dram.entryReq = none ∧ ringReady.pow.state = .run ∧ ringReady.su.supply = .running := by decide +kernel
theorem witness_StoredSlot : let rs := (slotWords rec1 5#32).map (fun w => (0, EccResult.clean w))
    rec1.payload.length ≤ 12 ∧ recoverableKind rec1.kind = true ∧ dataOf rs = slotWords rec1 5#32 ∧ anyBad rs = false ∧
    recoverableKind 0xEE#8 = true ∧ recoverableKind 0xEF#8 = false ∧ recoverableKind 0xFA#8 = true := by decide +kernel
theorem witness_RingWriteComplete :
    let g : Grant := .source .stager (.write 0x01400000 (slotWords rec1 0#32))
    let s := ({ ringReady with stg.writing := some 0#32 } : State).grants g
    s.stg.queue = [⟨1, some .svp, rec1⟩] ∧ s.stg.writing = some 0#32 ∧ s.memoryWf = true ∧ s.com.filling.isSome = true ∧
    s.com.held = none ∧ s.com.stalled = false ∧ (nextOf (exec .ringWriteComplete s)).map (fun t => t.com.queues.c1) = some [0#32] := by
  decide +kernel
/-- A ring write completes while commit is stalled, while a candidate is held and with no FILLING buffer. -/
theorem witness_RingWriteComplete_more :
    let s := ({ ringReady with stg.writing := some 0#32 } : State).grants (.source .stager (.write 0x01400000 (slotWords rec1 0#32)))
    let stalled : State := { s with com.closed := [closed1], com.headPage := 16, com.ahead := 0 }
    let held : State := { s with com := { s.com with held := some ⟨placed1, .sp⟩, filling := none, closed := [closed1, closed1] } }
    let none_ : State := { s with com.filling := none }
    let seen (t : State) := (t.stg.queue.length, (t.stg.rings.get 1).staged, t.com.queues.c1, t.com.full, t.com.filling.isSome)
    stalled.com.stalled = true ∧ 2 ≤ held.com.buffersUsed ∧
    (nextOf (exec .ringWriteComplete stalled)).map seen = some (0, 1, [0#32], true, true) ∧
    (nextOf (exec .ringWriteComplete held)).map seen = some (0, 1, [0#32], false, false) ∧
    (nextOf (exec .ringWriteComplete none_)).map seen = some (0, 1, [0#32], false, true) := by
  exact ⟨by decide +kernel, by decide +kernel, by decide +kernel, by decide +kernel, by decide +kernel⟩
theorem witness_OutboxDeparture : let s : State := { run0 with stg.outbox := [rec1], stg.lost := 3 }
    s.stg.outbox = [rec1] ∧ 1 ≤ s.unclaimed 0 ∧ s.su.supply = .running ∧ s.pow.state = .run ∧
    ({ s with stg.rings.c0.staged := 256 } : State).unclaimed 0 = 0 := by decide +kernel

/-- During a request for self-refresh entry: a departure, which the entry waits for; the grant of its slot; the entry goes on. -/
theorem witness_EntryWaits :
    let s : State := { run0.inPower .settling with dram.entryReq := some .doze, stg.outbox := [rec1] }
    let g : Grant := .source .stager (.write 0x01000000 (slotWords rec1 0#32))
    let q : State := { s with stg.queue := [⟨0, none, rec1⟩] }
    let w : State := ({ q with stg.writing := some 0#32, stg.rings.c0.reserved := 1, dram.owed := 1 } : State).grants g
    (nextOf (exec .outboxDeparture s)).map (fun t => (t.stg.queue, t.stg.outbox)) = some ([⟨0, none, rec1⟩], []) ∧
    q.stg.queue ≠ [] ∧ nextOf (exec .selfRefreshEntered q) = some q ∧
    ((nextOf (exec .ringWriteStart q)).bind (fun t => nextOf (exec (.arbiterChoice []) t))).map (·.dram.grant) = some (some g) ∧
    w.stg.queue = [⟨0, none, rec1⟩] ∧ w.stg.writing = some 0#32 ∧ w.dram.entryReq ≠ none ∧ w.dram.refresh = .none ∧ w.memoryWf = true ∧
    (nextOf (exec .ringWriteComplete w)).map (fun t => (t.stg.queue, t.dram.refresh)) = some ([], .entry) := by decide +kernel

/-! ### Commit -/

theorem run0_awake : Awake run0 := by unfold Awake; decide +kernel
/-- Two records wait in class 1. -/
def queued1 : State := { run0 with com.queues.c1 := [0#32, 1#32], com.sched := ⟨1, true, ⟨1, 1, 1, 1⟩, ⟨0, 64, 0, 0⟩⟩ }
theorem witness_Scheduler : Awake queued1 ∧ queued1.com.filling.isSome = true ∧ queued1.com.held = none ∧ queued1.com.fetching = none ∧
    (queued1.prof.classes.get 0).configured = true ∧
    (∀ c, (queued1.prof.classes.get c).configured = true → 1 ≤ (queued1.prof.classes.get c).weight) ∧ (∃ c, queued1.queued c = true) ∧
    queued1.alg = .sp ∧ ({ queued1 with prof.alg := .wrr } : State).alg = .wrr ∧ ({ queued1 with prof.alg := .dwrr } : State).alg = .dwrr := by
  unfold Awake; decide +kernel
/-- Under WRR class 1 has no credit left: the position moves past classes 1 to 3 into a new round, past class 0, and stays at class 1. -/
theorem witness_Scheduler_wrr : let s : State := { queued1 with prof.alg := .wrr, com.sched.credits := ⟨1, 0, 1, 1⟩ }
    (nextOf (exec .schedulerChoice s)).map (fun t => (t.com.sched.pos, t.com.sched.credits.get 1)) = some (1, 1) ∧
    (s.prof.classes.get 1).weight = 1 := by decide +kernel
/-- Under DWRR a turn of class 1 begins: its quantum is added once, and class 0, passed over with nothing queued, has deficit 0. -/
theorem witness_Scheduler_dwrr :
    let s : State := { queued1 with prof.alg := .dwrr, com.sched := ⟨0, false, ⟨1, 1, 1, 1⟩, ⟨5, 64, 0, 0⟩⟩ }
    (nextOf (exec .schedulerChoice s)).map (fun t => (t.com.sched.pos, t.com.sched.begun, t.com.sched.deficits)) =
      some (1, true, ⟨0, 128, 0, 0⟩) := by decide +kernel
/-- The slot of record 0 of class 1 has been granted to COMMIT. -/
def fetched (alg : CommitAlg) (f : FillBuf) : State :=
  ({ queued1 with
    com.fetching := some ⟨1, 0#32, alg⟩, com.filling := some f
    dram.cells := writeDram [] 64 (slotWords rec1 0#32) } : State).grants (.source .commit (.read 64 16))
theorem witness_CandidateRead : let s := fetched .sp emptyFill
    s.com.fetching = some ⟨1, 0#32, .sp⟩ ∧ s.com.filling = some emptyFill ∧ s.com.held = none ∧ s.dram.entryReq = none ∧
    s.dram.grant = some (.source .commit (.read 64 16)) ∧ slotDamaged (readDram s.dram.cells 64 16) 0#32 = false ∧
    slotDamaged (readDram s.dram.cells 64 16) 1#32 = true ∧ placed1.words.length = 6 ∧
    placedWords (List.replicate 9 placed1) = 54 ∧ s.com.buffersUsed = 1 ∧
    ({ s with com.closed := [closed1] } : State).com.buffersUsed = 2 ∧ (fetched .dwrr emptyFill).com.sched.deficits.get 1 = 64 ∧
    (nextOf (exec .candidateReadComplete s)).bind (fun t => t.com.filling) = some ⟨[placed1], 0⟩ := by decide +kernel
theorem witness_FlushDeadline : let s : State := { run0 with com.filling := some ⟨[placed1], 999⟩ }
    Awake s ∧ s.com.filling = some ⟨[placed1], 999⟩ ∧ s.com.held = none := by unfold Awake; decide +kernel
theorem witness_GoInFlight : let s : State := { run0 with com.closed := [closed1] }
    let r : State := { run0 with com.inflight := some { flight1 with waiting := true }, com.headPage := 16, com.ahead := 1, com.full := true }
    Awake s ∧ s.com.headAvailable = true ∧ s.com.inflight = none ∧ s.com.closed.head? = some closed1 ∧ s.com.headPage < 16 ∧
    Awake r ∧ r.com.headAvailable = true ∧ r.com.full = true := by unfold Awake; decide +kernel
/-- The head moves from block 256 past the skip-list block 257 to 258. -/
theorem witness_GoInFlight_skip : let s : State := { run0 with
      com.closed := [closed1], com.headPage := 16, com.ahead := 1, com.skip := [257, 300], com.upkeepHeld := true }
    s.com.headAvailable = true ∧ s.com.newHead = 258 ∧ 257 ∈ passedOver s.com.newHead 1792 s.com.headBlock ∧
    300 ∉ passedOver s.com.newHead 1792 s.com.headBlock ∧ s.com.held = none ∧ s.com.filling.isSome = true ∧ s.drainClose = false ∧
    ({ s with com.filling := none } : State).com.filling = none ∧
    (nextOf (exec .goInFlight s)).map (fun t => (t.com.headBlock, t.com.skip, t.com.upkeepHeld)) = some (258, [300], false) := by
  decide +kernel
theorem witness_PageInFlight : 1 ≤ flight1.buf.recs.length ∧ flight1.buf.recs.length ≤ 14 ∧ placedWords flight1.buf.recs ≤ 58 ∧
    (∀ r ∈ flight1.buf.recs, r.words.length = 4 + lengthOf (wordAt r.words 0) ∧ lengthOf (wordAt r.words 0) ≤ 12) := by decide +kernel
theorem witness_Upkeep : Awake run0 ∧ run0.com.ahead < run0.prof.spareTarget ∧ run0.pow.state ≠ .pfDrain ∧ run0.flash.upkeepBusy = false ∧
    run0.com.upkeepHeld = false ∧ run0.lock.journalRetain = false ∧ 256 ≤ run0.com.headBlock ∧ run0.com.skip.length ≤ 16 ∧
    ({ run0 with lock.journalRetain := true } : State).lock.journalRetain = true := by unfold Awake; decide +kernel
/-- The page in flight has been programmed and its VERIFY is at the device. -/
def verifying (cells : List (Nat × Word)) : State :=
  { run0.runs (.pageVerify 256 3) with com.inflight := some flight1, flash.cells := cells }
def page1 : List (Nat × Word) := programWords [] (flashAddr 256 3 0) (pageWords flight1)
theorem witness_Verify : JobAtDevice (verifying page1) (.pageVerify 256 3) ∧ flashPage page1 256 3 = pageWords flight1 ∧
    JobAtDevice (verifying []) (.pageVerify 256 3) ∧ flashPage [] 256 3 ≠ pageWords flight1 := by unfold JobAtDevice; decide +kernel
theorem witness_FailedPage : let s := { run0.runs (.pageProgram 256 3) with com.inflight := some flight1 }
    JobAtDevice s (.pageProgram 256 3) ∧ s.flash.current = some ⟨.pageProgram 256 3, 0, 0, false, false⟩ ∧ s.com.held = none ∧
    s.com.failed = 0 ∧ flight1.page ≠ 0 ∧ ({ s with com.failed := 1 } : State).com.failed = 1 ∧ s.com.skip.length < 16 ∧
    ({ s with com.skip := List.replicate 16 300 } : State).com.skip.length = 16 := by
  unfold JobAtDevice; decide +kernel

/-! ### Flash -/

theorem witness_FlashRead : let r := rd .svp 0x60100000#32 1
    let s := (run0.runs (.upErase 300)).carrying .svp .untaken r
    Current s .svp r [] ∧ s.gate .svp = .serve ∧ lookup s.prof.windows r = .flashRead 262144 ∧
    s.flash.current = some ⟨.upErase 300, 0, 0, false, false⟩ ∧ run0.flash.current = none := by unfold Current; decide +kernel
/-- An erase asked to suspend for a port's read, and the read carried in its suspension. -/
def suspending : State :=
  { run0 with flash.current := some ⟨.upErase 300, 9, 15, true, false⟩, flash.portReads := [.portRead .svp 262144 1] }
def suspended : State :=
  { (run0.runs (.portRead .svp 262144 1)).carrying .svp .flash (rd .svp 0x60100000#32 1) with
    flash.suspended := some ⟨.upErase 300, 9, 16, false, false⟩ }
theorem witness_Suspension : suspending.flash.current = some ⟨.upErase 300, 9, 15, true, false⟩ ∧
    suspending.flash.portReads = [.portRead .svp 262144 1] ∧ Carried suspended .svp .flash (rd .svp 0x60100000#32 1) [] ∧
    suspended.flash.currentJob = some (.portRead .svp 262144 1) ∧ suspended.flash.suspended = some ⟨.upErase 300, 9, 16, false, false⟩ ∧
    (nextOf (exec .readJobEnd suspended)).map (fun t => t.ports.svp.answers) = some [.done [0xFFFFFFFF#32]] := by
  unfold Carried; decide +kernel
/-- An erase is suspended up to 49 ms, and no more at its limit of 50 ms. -/
theorem witness_Suspension_limit : let at_ (x : Nat) : State := { suspending with flash.current := some ⟨.upErase 300, x, 15, true, false⟩ }
    (nextOf (exec .eraseSuspension (at_ 49))).map (fun t => t.flash.suspended.isSome) = some true ∧
    (nextOf (exec .eraseSuspension (at_ 50))) = some (at_ 50) := by decide +kernel
/-- PF-DRAIN has stopped an erase whose suspension was requested: it may still be suspended, and is aborted when the read has ended. -/
theorem witness_Suspension_drain : let e : Running := ⟨.upErase 300, 9, 15, true, true⟩
    let s : State := { suspended.inPower .pfDrain with flash.current := some e, flash.suspended := none, flash.portReads := [.portRead .svp 262144 1] }
    let read := (nextOf (exec .eraseSuspension s)).bind (fun t => nextOf (exec .readJobEnd t))
    s.flash.current = some e ∧ read.map (fun t => (t.flash.current, t.ports.svp.answers)) = some (none, [.done [0xFFFFFFFF#32]]) ∧
    (read.bind (fun t => nextOf (exec .eraseAbortEnd t))).map (fun t => t.flash.free) = some true ∧
    (nextOf (exec .eraseAbortEnd s)).map (fun t => (t.flash.free, t.flash.portReads)) = some (true, [.portRead .svp 262144 1]) := by
  decide +kernel
theorem witness_JobStart : let s : State := { run0.inPower .pfDrain with flash.upkeep := [.upErase 300], flash.burn := [.burnBlank 9] }
    s.su.supply = .running ∧ s.dram.entryReq = none ∧ s.pow.state = .pfDrain ∧ s.flash.current = none ∧ s.flash.suspended = none ∧
    s.flash.portReads = [] ∧ s.flash.journal = [] ∧ (nextOf (exec .jobStart s)).bind (fun t => t.flash.currentJob) = some (.burnBlank 9) := by
  decide +kernel
/-- While JOURNAL-RETAIN is set an upkeep ERASE goes on waiting and the burn's job starts; a blank check of upkeep starts all the same. -/
theorem witness_JobStart_retain :
    let s : State := { run0 with lock.journalRetain := true, flash.upkeep := [.upErase 300], flash.burn := [.burnBlank 9] }
    s.lock.journalRetain = true ∧ s.pow.state ≠ .pfDrain ∧
    (nextOf (exec .jobStart s)).map (fun t => (t.flash.currentJob, t.flash.upkeep)) = some (some (.burnBlank 9), [.upErase 300]) ∧
    (nextOf (exec .jobStart { s with flash.upkeep := [.upBlank 300] })).bind (·.flash.currentJob) = some (.upBlank 300) := by
  decide +kernel
theorem witness_ProgramAndErase : let s := { run0.runs (.pageProgram 256 3) with com.inflight := some flight1 }
    s.memoryWf = true ∧ JobAtDevice s (.pageProgram 256 3) ∧ (pageWords flight1).length = 64 ∧
    [⟨63, 0#32⟩].all (Defect.wf 64) = true ∧ JobAtDevice (run0.runs (.upErase 2047)) (.upErase 2047) ∧
    [⟨1023, 0#32⟩].all (Defect.wf 1024) = true ∧ [⟨64, 0#32⟩].all (Defect.wf 64) = false ∧ [⟨1024, 0#32⟩].all (Defect.wf 1024) = false := by
  unfold JobAtDevice; decide +kernel
theorem witness_UpkeepJobs : run0.memoryWf = true ∧ JobAtDevice (run0.runs (.upBlank 300)) (.upBlank 300) ∧
    (∀ i, i < 1024 → readCell erasedWord run0.flash.cells (300 * 1024 + i) = erasedWord) ∧
    (∃ i, i < 1024 ∧ readCell erasedWord [(300 * 1024 + 5, 7#32)] (300 * 1024 + i) ≠ erasedWord) ∧
    JobAtDevice (run0.runs (.upErase 300)) (.upErase 300) ∧ JobAtDevice (run0.runs (.upHeader 300)) (.upHeader 300) := by
  unfold JobAtDevice; exact ⟨by decide +kernel, by decide +kernel, fun _ _ => rfl, ⟨5, by decide +kernel, by decide +kernel⟩, by decide +kernel, by decide +kernel⟩
def burn1 (held : HeldStep) (act : BurnAct) : Burn := ⟨2, 9, held, act, false, false, none⟩
theorem witness_Interrupted : let s := { run0.runs (.pageProgram 256 3) with com.inflight := some flight1 }
    let e : State := { run0 with
      flash.current := some ⟨.burnErase 9, 4, 0, false, true⟩, img.burn := some { burn1 .s4Erase .job with aborting := true } }
    s.memoryWf = true ∧ JobAtDevice s (.pageProgram 256 3) ∧ e.flash.current = some ⟨.burnErase 9, 4, 0, false, true⟩ ∧
    e.img.burn = some { burn1 .s4Erase .job with aborting := true } := by unfold JobAtDevice; decide +kernel
/-- PF-DRAIN is entered anew while a burn's suspended erase still awaits its abort: the burn waits for ABORTED and only then goes back
to the queue (R97). -/
theorem test_drain_again : let e : State := { run0 with
      flash.suspended := some ⟨.burnErase 9, 4, 1, false, true⟩, img.burn := some { burn1 .s4Erase .job with aborting := true } }
    (nextOf (exec .pfwAsserted e)).map (fun t => (t.pow.state, t.img.burn, t.img.queue, t.flash.suspended)) =
      some (.pfDrain, e.img.burn, [], e.flash.suspended) ∧
    ((nextOf (exec .pfwAsserted e)).bind (fun t => nextOf (exec .eraseAbortEnd t))).map
      (fun t => (t.img.burn, t.img.queue, t.img.slots.get 2, t.flash.suspended)) = some (none, [2], .queued 9, none) := by decide +kernel

/-! ### Images and burns -/

/-- Slot 0 is OPEN for block 33, slot 1 QUEUED for block 34. -/
def slots1 : State := { run0 with img.slots.e0 := .opened 33 29999, img.slots.e1 := .queued 34, img.queue := [1] }
theorem witness_ImageAccess : let r := rd .mnp 0x60021000#32 1
    let w := wr .mnp 0x60021FFC#32 0xF#4 [1#32]
    Current (slots1.carrying .mnp .untaken r) .mnp r [] ∧ slots1.gate .mnp = .serve ∧ lookup prof1.windows r = .imageRead 33 0 ∧
    lookup prof1.windows w = .imageWrite 33 1023 ∧ slots1.fillAhead .mnp 33 = false ∧ slots1.writeAhead .mnp 33 = false ∧
    slots1.img.slotOf 33 = some 0 ∧ slots1.img.slotOf 34 = some 1 ∧ slots1.img.slotOf 35 = none ∧
    slots1.img.slots.get 2 = .empty ∧ (∀ j, j < 2 → slots1.img.slots.get j ≠ .empty) ∧
    (slots1.carrying .svp (.fill 0 63) w).writeAhead .mnp 33 = true ∧ (slots1.carrying .svp (.fill 0 63) w).fillAhead .mnp 33 = true := by
  unfold Current; decide +kernel
/-- MNP's write waits behind SVP's; once that has ended, MNP's is taken up and a later one of SVP waits. -/
def waiting33 : State :=
  { slots1.carrying .mnp .imageWait (wr .mnp 0x60021000#32 0xF#4 [1#32]) with img := { slots1.img with waiting := [.mnp] } }
theorem witness_ImageWait : let w := wr .mnp 0x60021000#32 0xF#4 [1#32]
    let v := wr .svp 0x60021004#32 0xF#4 [2#32]
    Carried waiting33 .mnp .imageWait w [] ∧ waiting33.pow.state = .run ∧ lookup waiting33.prof.windows w = .imageWrite 33 0 ∧
    waiting33.writeAhead .mnp 33 = false ∧ waiting33.img.slotOf 33 = some 0 ∧ waiting33.img.slots.get 0 = .opened 33 29999 ∧
    (waiting33.carrying .svp (.store 0) v).writeAhead .mnp 33 = true ∧ waiting33.img.waiting.head? = some (otherPort .svp) ∧
    waiting33.writeAhead .svp 33 = true ∧
    (nextOf (exec (.imageWrite .mnp) waiting33)).map (fun t => (t.ports.mnp.carry, t.img.waiting)) = some (.store 0, []) := by
  unfold Carried; decide +kernel
/-- A waiting write that meets a QUEUED slot or no slot, and a waiting read taken up again. -/
theorem witness_ImageWait_again : let w := wr .mnp 0x60021000#32 0xF#4 [1#32]
    let q : State := { waiting33 with img.slots.e0 := .queued 33 }
    let n : State := { waiting33 with img.slots.e0 := .empty }
    let r : State := { waiting33.carrying .mnp .imageWait (rd .mnp 0x60021000#32 1) with pow.state := .pfDrain }
    let seen (t : State) := (t.ports.mnp.carry, t.ports.mnp.answers, t.img.waiting)
    Carried q .mnp .imageWait w [] ∧ q.img.slotOf 33 = some 0 ∧ n.img.slotOf 33 = none ∧ r.fillAhead .mnp 33 = false ∧
    (nextOf (exec (.imageWrite .mnp) q)).map seen = some (.untaken, [.refused .busy], []) ∧
    (nextOf (exec (.imageWrite .mnp) n)).map seen = some (.fill 0 0, [], []) ∧
    (nextOf (exec (.imageRead .mnp) r)).map seen = some (.plain, [], []) ∧
    (waiting33.carrying .svp (.fill 0 3) (wr .svp 0x60021004#32 0xF#4 [2#32])).writeAhead .mnp 33 = true ∧
    (waiting33.carrying .svp (.store 1) (wr .svp 0x60022004#32 0xF#4 [2#32])).writeAhead .mnp 33 = false := by
  unfold Carried; decide +kernel
theorem witness_lockRefusal : ¬ refusesBlock manufactureLock 255 ∧ ¬ refusesBlock manufactureLock 0 ∧
    refusesBlock { manufactureLock with bootRewrite := true } 0 ∧ refusesBlock { manufactureLock with shieldS := 2 } 1 ∧
    refusesBlock { manufactureLock with imageProgram := true } 9 := by unfold refusesBlock; decide +kernel
theorem witness_SlotFill : let w := wr .mnp 0x60021FFC#32 0xF#4 [1#32]
    let v := wr .mnp 0x60021FFC#32 0x1#4 [1#32]
    let g (r : Request) (c : Carry) (q : DramReq) : State := (slots1.carrying .mnp c r).grants (.source .mnp q)
    (∀ k ∈ [0, 63], Carried (g w (.fill 0 k) (.write 64 (List.replicate 16 0xFFFFFFFF#32))) .mnp (.fill 0 k) w []) ∧
    Carried (g w (.fill 0 64) (.write 1087 [1#32])) .mnp (.fill 0 64) w [] ∧ Carried (g v (.store 0) (.rmw 1087 1#32 1#4)) .mnp (.store 0) v [] ∧
    slots1.memoryWf = true ∧ slots1.img.slots.get 0 = .opened 33 29999 ∧ lookup prof1.windows w = .imageWrite 33 1023 ∧ 1023 + w.len = 1024 := by
  unfold Carried; decide +kernel
theorem witness_IdleSlot : slots1.img.slots.get 0 = .opened 33 29999 ∧ slots1.su.supply = .running ∧ slots1.pow.state = .run ∧
    slots1.slotInCarry 0 = false := by decide +kernel
theorem witness_BurnStart : slots1.img.queue = [1] ∧ slots1.img.slots.get 1 = .queued 34 ∧ slots1.img.burn = none ∧
    slots1.dram.entryReq = none ∧ slots1.pow.state = .run ∧ slots1.dram.grant = none ∧
    (slots1.grants (.source .burn (.read 64 16))).dram.grant = some (.source .burn (.read 64 16)) ∧
    imageForbidden slots1.lock 34 = false ∧ imageForbidden { slots1.lock with imageProgram := true } 34 = true ∧
    ({ slots1 with img.slots.e1 := .queued 0 } : State).img.slots.get 1 = .queued 0 := by decide +kernel
/-- A read of the burn has been granted. -/
def burning (b : Burn) : State := { run0.grants (.source .burn (.read 64 16)) with img.burn := some b }
theorem witness_BurnReads : ∀ b ∈ [burn1 .s2 (.reading 0 []), burn1 .s2 (.reading 63 []), burn1 (.s5 none) (.reading 63 []),
      burn1 (.s5 (some [15])) (.fetching 3 []), burn1 (.s6 15 0#16 false) (.fetching 0 [])],
    (burning b).img.burn = some b ∧ (burning b).dram.waiting.get .burn = none ∧ (burning b).dram.entryReq = none ∧
    (burning b).pow.state = .run ∧ b.paused = false ∧ b.aborting = false ∧
    (readDram (burning b).dram.cells 64 16).all (fun x => x.2 == .clean 0#32) = true ∧
    (readDram [(79, 3#39)] 64 16).any (·.2.bad) = true := by decide +kernel
theorem witness_BurnJobs (h : HeldStep) : let s (j : Job) : State := { run0.runs j with img.burn := some (burn1 h .job) }
    (s (.burnBlank 9)).img.burn = some (burn1 h .job) ∧ (s (.burnBlank 9)).pow.state = .run ∧ (s (.burnBlank 9)).memoryWf = true ∧
    JobAtDevice (s (.burnBlank 9)) (.burnBlank 9) ∧ JobAtDevice (s (.burnErase 9)) (.burnErase 9) ∧
    JobAtDevice (s (.burnProgram 9 15 (List.replicate 64 0#32))) (.burnProgram 9 15 (List.replicate 64 0#32)) ∧ JobAtDevice (s (.burnVerify 9 15 [] 0#16)) (.burnVerify 9 15 [] 0#16) ∧
    (Job.burnErase 9).limit = some 50 ∧ (Job.burnProgram 9 15 []).limit = some 2 ∧ (List.replicate 64 0#32).length = 64 := by
  exact ⟨rfl, rfl, rfl, ⟨rfl, rfl⟩, ⟨rfl, rfl⟩, ⟨rfl, rfl⟩, ⟨rfl, rfl⟩, rfl, rfl, rfl⟩
/-- The last VERIFY of a burn of block 0, one of a page below 15, and a program below the last page. -/
theorem witness_BurnJobs_boot : let b : Burn := { burn1 (.s6 15 0#16 false) .job with block := 0, newLock := some manufactureLock }
    let erased := List.replicate 64 0xFFFFFFFF#32
    let s (p : Nat) : State := { run0.runs (.burnVerify 0 p erased 0#16) with img.burn := some { b with held := .s6 p 0#16 false } }
    JobAtDevice (s 15) (.burnVerify 0 15 erased 0#16) ∧ JobAtDevice (s 14) (.burnVerify 0 14 erased 0#16) ∧
    (nextOf (exec .verifyEnd (s 15))).map (fun t => (t.img.results.map (·.code), t.su.profState)) = some ([1], .pending) ∧
    (nextOf (exec .verifyEnd (s 14))).bind (fun t => t.img.burn.map (·.act)) = some (.fetching 0 []) := by
  unfold JobAtDevice; decide +kernel
/-- Outside RUN a burn pauses at the boundary its job or its reading reaches, and keeps its held step (R96). -/
theorem witness_Burn_pauses : let s : State := { (run0.inPower .settling).runs (.burnBlank 9) with img.burn := some (burn1 .s3 .job) }
    let d : State := (burning (burn1 .s2 (.reading 63 []))).inPower .settling
    JobAtDevice s (.burnBlank 9) ∧ s.memoryWf = true ∧
    (nextOf (exec .blankCheckEnd s)).map (fun t => (t.img.burn, t.dram.waiting.burn)) =
      some (some { burn1 (.s5 none) .idle with paused := true }, none) ∧
    (nextOf (exec .burnShadowReadComplete d)).map (fun t => (t.img.burn, t.stg.outbox.length)) = some (none, 1) := by
  unfold JobAtDevice; decide +kernel
/-- The end of the PROGRAM, its time limit and the end of the source fetch of a burn that PF-DRAIN stopped (R76, R97). -/
theorem witness_Burn_stopped : let ws := List.replicate 64 0#32
    let b : Burn := { burn1 (.s5 (some [15])) .job with aborting := true }
    let s : State := { (run0.inPower .pfDrain).runs (.burnProgram 9 15 ws) with img.burn := some b, img.queue := [4] }
    let f : State := { (burning { b with act := .fetching 3 [] }).inPower .pfDrain with img.queue := [4] }
    let back (t : State) := (t.img.burn, t.img.queue, t.img.slots.get 2, t.img.results.length)
    JobAtDevice s (.burnProgram b.block 15 ws) ∧ s.memoryWf = true ∧ s.flash.current = some ⟨.burnProgram 9 15 ws, 0, 0, false, false⟩ ∧
    (nextOf (exec (.programEnd []) s)).map back = some (none, [2, 4], .queued 9, 0) ∧
    (nextOf (exec .flashTimeout s)).map back = some (none, [2, 4], .queued 9, 0) ∧
    (nextOf (exec .sourceFetchComplete f)).map back = some (none, [2, 4], .queued 9, 0) := by
  exact ⟨⟨rfl, rfl⟩, rfl, rfl, by decide +kernel, by decide +kernel, by decide +kernel⟩

/-! ### DRAM -/

/-- SVP and COMMIT wait. -/
def waits1 : State := { run0 with dram.waiting := ⟨none, some (.read 0 1), none, some (.read 64 16), none, none⟩ }
theorem witness_Arbiter : DramFree waits1 ∧ waits1.dram.owed < waits1.prof.urgentThreshold ∧ rowsWf waits1.dram.rows = true ∧
    favours waits1 .svp ∧ inGeometry waits1.prof 0 1 ∧ ¬ inGeometry waits1.prof 67108864 1 ∧ inGeometry waits1.prof 67108863 1 ∧
    (nextOf (exec (.arbiterChoice [⟨5, 1#39⟩]) waits1)).map (·.dram.cells) = some [(5, 1#39)] := by
  refine ⟨by unfold DramFree; decide +kernel, by decide +kernel, by decide +kernel, ⟨fun _ j h => ?_, fun h => ?_⟩, ?_⟩
  · cases j <;> revert h <;> unfold above <;> decide +kernel
  · exact absurd h (by decide +kernel)
  · unfold inGeometry; decide +kernel
/-- Under WSP COMMIT is due and goes first. -/
theorem witness_Arbiter_wsp : favours { waits1 with prof.policy := .wsp, dram.passover.commit := 15 } .commit := by
  refine ⟨fun h => absurd h (by decide +kernel), fun _ => Or.inl ⟨by unfold isDue; decide +kernel, fun j h => ?_⟩⟩
  cases j <;> revert h <;> unfold above isDue <;> decide +kernel
theorem witness_Scrub : let s : State := { run0 with dram.correction := [7], dram.patrol := 1 }
    DramFree s ∧ s.dram.owed = 0 ∧ 1 ≤ s.prof.urgentThreshold ∧ (∀ r, s.dram.waiting.get r = none) ∧ inGeometry s.prof 7 1 ∧
    inGeometry s.prof 67108856 8 ∧ scrubNext s.prof 67108856 = 0 ∧ scrubNext s.prof 67108848 = 67108856 ∧
    (s.grants (.writeBack 7)).dram.grant = some (.writeBack 7) ∧ s.memoryWf = true ∧
    (readCode 0#39, readCode 1#39, readCode 3#39) = (.clean 0#32, .corrected 0#32, .uncorrectable 6#7) := by
  refine ⟨by unfold DramFree; decide +kernel, by decide +kernel, by decide +kernel, fun r => by cases r <;> rfl, ?_⟩
  unfold inGeometry; decide +kernel
theorem witness_Refresh : DramFree run0 ∧ run0.dram.timerOn = true ∧ (∀ r, run0.dram.waiting.get r = none) ∧
    ({ run0 with dram.owed := 6 } : State).dram.owed = run0.prof.urgentThreshold ∧
    (nextOf (exec .refreshTimerExpiry { run0 with dram.owed := 8, pow.hot := true })).map (fun t => (t.dram.owed, t.dram.lostRefresh, t.dram.period))
      = some (8, 1, 39) ∧
    (nextOf (exec .refreshEnd { run0 with dram.owed := 1, dram.refresh := .trickle, pow.hot := true, dram.patrol := 1 })).map
      (fun t => (t.dram.owed, t.dram.patrol)) = some (0, 2) := by
  exact ⟨by unfold DramFree; decide +kernel, rfl, fun r => by cases r <;> rfl, by decide +kernel, by decide +kernel, by decide +kernel⟩

/-- An expiry during a trickle refresh lifts the owed count to the threshold of 6: the sequence follows the trickle refresh and pays all. -/
theorem test_urgent_after_trickle : let s : State := { run0 with dram.owed := 5, dram.refresh := .trickle }
    s.dram.entryReq = none ∧ s.dram.grant = none ∧ s.prof.urgentThreshold = 6 ∧
    ((nextOf (exec .refreshTimerExpiry s)).bind (fun t => nextOf (exec .refreshEnd t))).map
      (fun t => (t.dram.owed, t.dram.refresh, t.dram.patrol)) = some (5, .urgent, 1) ∧
    (nextOf (exec .refreshEnd s)).map (fun t => (t.dram.owed, t.dram.refresh, t.dram.patrol)) = some (4, .none, 1) := by decide +kernel

/-! ### Power, contacts, quiet timer, mirror -/

theorem witness_Lpreq : run0.pow.lpreq = false ∧ run0.pow.state = .run ∧ ({ run0.inPower .roused with pow.lpreq := true } : State).pow.lpreq = true ∧
    run0.dram.entryReq ≠ some .doze ∧ Calm run0 ∧ (nextOf (exec .lpreqAsserted run0)).map (·.pow.state) = some .settling := by
  unfold Calm; decide +kernel
theorem witness_Pfw : run0.pow.pfw = false ∧ ({ run0.inPower .pfDrain with pow.pfw := true } : State).pow.pfw = true ∧
    Awake (run0.inPower .pfDrain) ∧ Drained (run0.inPower .pfDrain) ∧ ¬ Drained run0 := by
  refine ⟨rfl, rfl, by unfold Awake; decide +kernel, ⟨rfl, Or.inl ⟨fun c => ?_, rfl, rfl, rfl⟩, Or.inl rfl, rfl, Or.inl fun i => ?_, rfl, rfl, rfl, ?_⟩, fun h => ?_⟩
  · match c with | 0 => rfl | 1 => rfl | 2 => rfl | 3 => rfl
  · match i with | 0 => rfl | 1 => rfl | 2 => rfl | 3 => rfl
  · intro j hj; exact absurd hj (by simp [State.inPower, run0, State.reset, resetFlash])
  · exact absurd h.1 (by decide +kernel)
/-- The drain waits for a port read that was dispatched before it. -/
theorem witness_Drain_read : let s : State := { run0.inPower .pfDrain with flash.portReads := [.portRead .svp 262144 1] }
    nextOf (exec .drainEnd s) = some s ∧
    (nextOf (exec .drainEnd (run0.inPower .pfDrain))).map (·.dram.entryReq) = some (some .halt) := by decide +kernel
/-- Nothing is left to do, and MNP has been quiet for the relapse interval. -/
def quiet0 : State := { run0.inPower .settling with pow.relapse := 50 }
theorem witness_Settled : Awake quiet0 ∧ Settled quiet0 ∧ ¬ Settled run0 ∧ quiet0.pow.relapse ≤ quiet0.prof.relapseInterval ∧
    quiet0.pow.entryPending = false ∧ ({ quiet0 with pow.entryPending := true } : State).pow.entryPending = true := by
  refine ⟨by unfold Awake; decide +kernel, ⟨Or.inl rfl, Or.inl ⟨fun c => ?_, rfl, rfl, rfl, rfl, rfl⟩, rfl, rfl, fun b h => ?_, Or.inl rfl,
    Or.inl fun i => ?_, fun c => ?_, by decide +kernel, rfl, fun _ => rfl⟩, fun h => ?_, by decide +kernel, rfl, rfl⟩
  · match c with | 0 => rfl | 1 => rfl | 2 => rfl | 3 => rfl
  · cases h
  · match i with | 0 => rfl | 1 => rfl | 2 => rfl | 3 => rfl
  · match c with | 0 => rfl | 1 => rfl | 2 => rfl | 3 => rfl
  · exact absurd h.1 (by decide +kernel)
/-- The commit point waits while a record is in the ring write queue, a stalled commit or not. -/
theorem witness_CommitPoint :
    let s : State := { quiet0 with pow.entryPending := true }
    let q : State := { s with com.closed := [closed1], com.headPage := 16, com.ahead := 0, stg.queue := [⟨0, none, rec1⟩] }
    s.stg.queue = [] ∧ (nextOf (exec .dozeCommitPoint s)).map (·.dram.entryReq) = some (some .doze) ∧
    q.commitSettled = true ∧ nextOf (exec .dozeCommitPoint q) = some q := by decide +kernel
theorem witness_SelfRefreshEntry : let s : State := { quiet0 with dram.entryReq := some .doze, pow.heldEvents := [.mnpArrived] }
    s.dram.grant = none ∧ s.dram.refresh = .none ∧ s.dram.entryReq = some .doze ∧ s.pow.heldEvents = [.mnpArrived] ∧
    ({ quiet0 with dram.refresh := .entry, dram.owed := 2 } : State).dram.refresh = .entry ∧
    ({ quiet0 with dram.entryReq := some .halt } : State).dram.entryReq = some .halt ∧
    (nextOf (exec .selfRefreshEntered s)).map (fun t => (t.pow.state, t.pow.wakeCause)) = some (.doze, some 1) := by decide +kernel
/-- Between the commit point and DOZE, PFW and the edge at a debounce time's end are held; the first held event that is a wake cause is the
wake cause, and a contact edge is an edge of DOZE. -/
theorem witness_Held : let s : State := { quiet0 with dram.entryReq := some .doze }
    let h : State := { s with pow.heldEvents := [.contact 0 true, .pfwAsserted, .mnpArrived] }
    let d : State := { s with con.debounce.c0 := some 19, con.pin.c0 := true }
    (nextOf (exec .pfwAsserted s)).map (fun t => (t.pow.state, t.pow.heldEvents)) = some (.settling, [.pfwAsserted]) ∧
    d.con.debounce.get 0 = some 19 ∧ d.con.pin.get 0 = true ∧
    (nextOf (exec (.debounceEnd 0) d)).map (fun t => (t.pow.heldEvents, t.con.debounce.c0)) = some ([.contact 0 true], none) ∧
    (nextOf (exec .selfRefreshEntered h)).map (fun t => (t.pow.state, t.pow.wakeCause, t.con.slots.c0.isSome, t.pow.heldEvents)) =
      some (.doze, some 2, true, []) ∧
    (nextOf (exec .selfRefreshEntered { h with prof.contacts.c0.wake := false })).map (fun t => (t.pow.wakeCause, t.con.tracked.c0)) =
      some (some 5, true) := by decide +kernel
/-- A grant that ends with self-refresh entry asked for: the rows close and the refreshes owed begin. -/
theorem witness_GrantEnds : let s : State := { granted .svp (rd .svp 0#32 2) (.read 0 2) with dram.owed := 2 }
    let e : State := { s with dram.entryReq := some .doze }
    Instr.portDramGrantEnd ∈ grantEnds ∧ e.stg.queue = [] ∧ e.dram.refresh = .none ∧
    (nextOf (exec .portDramGrantEnd s)).map (fun t => (t.dram.grant, t.dram.refresh)) = some (none, .none) ∧
    (nextOf (exec .portDramGrantEnd e)).map (fun t => (t.dram.grant, t.dram.refresh, t.ports.svp.answers.length)) = some (none, .entry, 1) := by
  decide +kernel
theorem witness_Sleep : let s : State := { run0.inPower .doze with dram.mode := .selfRefresh, dram.exitReq := true, pow.wakeTimer := some 899999 }
    s.su.supply = .running ∧ s.dram.mode = .selfRefresh ∧ s.dram.exitReq = true ∧ s.pow.state = .doze ∧ s.pow.wakeTimer = some 899999 ∧
    ({ s with pow.lpreq := true } : State).pow.lpreq = true ∧ (s.inPower .pfHalt).pow.state = .pfHalt ∧
    (nextOf (exec .selfRefreshExit s)).map (·.pow.state) = some .run := by decide +kernel
theorem witness_Contacts : let s : State := { run0 with con.debounce.c0 := some 19, con.pin.c0 := true }
    run0.su.supply ≠ .off ∧ run0.dram.entryReq ≠ some .doze ∧ run0.con.pin.get 0 ≠ true ∧ (run0.prof.contacts.get 0).mode ≠ .off ∧
    run0.con.debounce.get 0 = none ∧ run0.con.tracked.get 0 ≠ true ∧ (run0.prof.contacts.get 3).mode = .off ∧
    s.con.debounce.get 0 = some 19 ∧ s.con.pin.get 0 = true ∧ s.con.tracked.get 0 ≠ true ∧ (run0.prof.contacts.get 1).debounce = 0 ∧
    ({ run0 with con.slots.c2 := some ⟨true, 1, 0#48, false, 0#48, false⟩ } : State).con.slots.get 2 = some ⟨true, 1, 0#48, false, 0#48, false⟩ ∧
    (∀ j, j < 2 → run0.con.slots.get j = none) ∧ run0.pow.state ≠ .doze ∧ run0.pow.state ≠ .starting := by decide +kernel
/-- Between the commit point and DOZE an edge is held, but for an input whose debounce time runs. -/
theorem witness_Contacts_held : let s : State := { run0 with dram.entryReq := some .doze }
    let d : State := { s with con.debounce.c0 := some 19 }
    s.dram.entryReq = some .doze ∧ s.con.pin.get 0 ≠ true ∧ s.con.debounce.get 0 = none ∧ d.con.debounce.get 0 ≠ none ∧
    (nextOf (exec (.contactEdge 0 true) s)).map (·.pow.heldEvents) = some [.contact 0 true] ∧
    (nextOf (exec (.contactEdge 0 true) d)).map (·.pow.heldEvents) = some [] := by decide +kernel
theorem witness_Quiet : let s : State := { run0 with quiet := ⟨some 1, 65535, some 10⟩ }
    s.quiet.remaining = some 1 ∧ s.su.supply = .running ∧ s.pow.state = .run ∧ s.quiet.pulse = some 10 ∧
    (nextOf (exec .quietExpiry s)).map (·.quiet) = some ⟨some 60000, 65535, some 0⟩ := by decide +kernel
/-- The expiry takes SVP's record from under a payload write in carry, which is then refused ORDER; so is a burst from an inner word. -/
theorem witness_Quiet_race :
    let w := wr .svp 0x70000048#32 0xF#4 [6#32]
    let b := wr .svp 0x70000044#32 0xF#4 [6#32, 7#32]
    let s : State := { (run0.opens .svp open1).carrying .svp .untaken w with quiet := ⟨some 0, 0, none⟩ }
    let t : State := { run0.carrying .svp .taken w with quiet.pulse := some 0 }
    PayloadInCarry s .svp ∧ lookup s.prof.windows b = .burst 1 1 ∧ Carried t .svp .taken w [] ∧ t.context .svp 1 = none ∧
    lookup t.prof.windows w = .payload 1 2 ∧ Carried (run0.carrying .svp .taken b) .svp .taken b [] ∧
    (nextOf (exec .quietExpiry s)).map (·.ports.svp.carry) = some .taken ∧
    (nextOf (exec .quietExpiry s)).bind (fun u => (nextOf (exec (.payloadWord .svp) u)).map (·.ports.svp.answers)) =
      some [.refused .order] := by
  refine ⟨⟨rfl, rfl, by decide +kernel, _, _, 1, 2, rfl, Or.inl (by decide +kernel)⟩, ?_⟩
  unfold Carried; decide +kernel
/-- A write starts in each state that runs the clock, a request for self-refresh entry or not. -/
theorem witness_Mirror_entry : ∀ p ∈ [PowerState.run, .settling, .roused, .pfDrain],
    let s : State := { run0.inPower p with mir.dirty := true, dram.entryReq := some .doze }
    s.su.supply = .running ∧ s.dram.mode = .usable ∧ s.mir.write = none ∧
    (nextOf (exec .mirrorWriteStart s)).map (·.mir.dirty) = some false := by decide +kernel
theorem witness_Mirror : let s : State := { run0 with mir.dirty := true, mir.gen := 0xFFFFFFFF#32 }
    let w : State := ({ run0 with mir.write := some ⟨List.replicate 64 0#32, 5⟩ } : State).grants (.source .mirror (.write 63 [0#32]))
    Awake s ∧ s.dram.mode = .usable ∧ s.mir.dirty = true ∧ s.mir.write = none ∧ w.mir.write = some ⟨List.replicate 64 0#32, 5⟩ ∧
    w.dram.entryReq = none ∧ w.memoryWf = true ∧ w.dram.grant = some (.source .mirror (.write 63 [0#32])) ∧
    (nextOf (exec .mirrorWriteStart s)).map (fun t => (t.mir.gen, t.dram.waiting.mirror)) = some (0#32, some (.write 0x01001000 [0#32])) := by
  unfold Awake; decide +kernel
/-- The words of a copy that show the state, the head, a burn result and the attention set. -/
theorem witness_Mirror_words : let s : State := { run0 with
      mir.dirty := true, img.results := [⟨9, 1, 0xABCD#16⟩], mir.attention := ⟨.waiting, .recorded 7#32, .absent, .absent, .absent, .absent, .absent, .absent⟩ }
    (nextOf (exec .mirrorWriteStart s)).bind (fun t => t.mir.write.map (fun w => [1, 26, 30, 31, 32, 49, 50, 51, 52].map (wordAt w.copy))) =
      some [0x2102#32, 0x30100#32, 0x109#32, 0xABCD#32, 0#32, 3#32, 1#32, 7#32, 0#32] := by decide +kernel

/-! ### Resets and start-up -/

/-- A part in start-up with a job at the device. -/
def starting (phase : Phase) (j : Job) : State :=
  { run0.runs j with pow.state := .starting, su.phase := phase, su.strap := true, dram.mode := .down }
theorem witness_Resets : run0.su.supply = .running ∧ State.reset.su.supply ≠ .running ∧ State.reset.su.supply = .powerOnReset ∧
    State.reset.ports.svp.queue = [] ∧ State.reset.ports.mnp.queue = [] ∧
    ({ State.reset with su.supply := .restart } : State).su.supply = .restart ∧
    (run0.runs (.upErase 300)).flash.current = some ⟨.upErase 300, 0, 0, false, false⟩ ∧ run0.flash.suspended = none ∧
    (nextOf (exec .restartAsserted run0)).map (fun t => (t.dram.mode, t.su.cause)) = some (.selfRefresh, 2) := by decide +kernel
/-- RESTART with each kind of grant in progress, and with a blank check at the device. -/
theorem witness_Resets_grants : let s (g : Grant) : State := { run0.grants g with dram.cells := [(5, 1#39)] }
    (s (.source .svp (.rmw 5 9#32 1#4))).dram.grant = some (.source .svp (.rmw 5 9#32 1#4)) ∧ (s (.writeBack 5)).memoryWf = true ∧
    readCode (readCell dramDefault (s (.writeBack 5)).dram.cells 5) = .corrected 0#32 ∧
    (nextOf (exec .restartAsserted (s (.writeBack 5)))).map (·.dram.cells) = some [] ∧
    (nextOf (exec .restartAsserted (s (.source .svp (.read 5 1))))).map (·.dram.cells) = some [(5, 1#39)] ∧
    (nextOf (exec .restartAsserted (s (.patrol 0)))).map (·.dram.cells) = some [(5, 1#39)] ∧
    (nextOf (exec .restartAsserted (s (.source .stager (.write 5 [0#32]))))).map (·.dram.cells) = some [] ∧
    (run0.runs (.upBlank 300)).flash.current = some ⟨.upBlank 300, 0, 0, false, false⟩ ∧ run0.pow.heldEvents = [] := by decide +kernel
theorem witness_StartUp : JobAtDevice (starting .profile .suProfile) .suProfile ∧ parseProfile (flashWords [] 0 128) = none ∧
    (starting .profile .suProfile).su.strap = true ∧ (∀ b ∈ [1, 254, 255], JobAtDevice (starting .release (.suBlank b)) (.suBlank b)) ∧
    (starting .release (.suBlank 255)).su.phase = .release ∧ (starting .release (.suBlank 255)).memoryWf = true ∧
    ({ run0 with dram.mode := .filling } : State).dram.mode = .filling ∧
    ({ run0.inPower .starting with dram.mode := .selfRefresh, dram.exitReq := true } : State).pow.state = .starting ∧
    (nextOf (exec .readJobEnd (starting .profile .suProfile))).map (fun t => (t.su.profState, t.flash.startup)) =
      some (.safe, [.suBlank 1]) := by unfold JobAtDevice; decide +kernel
/-- A profile block with the safe profile's values, no window and CONTACT0 on both edges, and its check. -/
def profileWords : List Word :=
  [0x7A3C5E01, 1, 0, 0x15, 0x111111, 0x3214264E, 0x001E03E8, 0, 900, 0x04008000, 0x04004000, 0x00140314, 0x00140014, 0x00FF0100, 0, 0,
    0x00010017, 0x04000000, 64].map (BitVec.ofNat 32) ++ List.replicate 109 0#32
def profileBlock : List Word := profileWords.set 2 ((profileSum profileWords).setWidth 32)
theorem witness_StartUp_loaded :
    parseProfile profileBlock = some { safeProfile with
      windows := List.replicate 12 safeNoWindow, contacts.c0 := ⟨.both, 20, false⟩
      classes := ⟨safeProfile.classes.c0, safeUnconfigured, safeUnconfigured, safeUnconfigured⟩ } ∧
    (let s : State := { starting .profile .suProfile with flash.cells := programWords [] 0 profileBlock }
     flashWords s.flash.cells 0 128 = profileBlock ∧
     (nextOf (exec .readJobEnd s)).map (fun t => (t.su.profState, t.con.tracked.c0)) = some (.loaded, s.con.tracked.c0)) := by
  decide +kernel
/-- Dirty follows the shown values: unchanged where the profile state and the release result are those shown, set where they change. -/
theorem witness_StartUp_dirty :
    let s : State := { starting .release (.suBlank 9) with mir.dirty := false, flash.cells := [(9 * 1024, 0#32)] }
    JobAtDevice s (.suBlank 9) ∧ s.su.phase = .release ∧
    (nextOf (exec .blankCheckEnd s)).map (fun t => (t.su.release, t.mir.dirty)) = some (3, true) ∧
    (nextOf (exec .blankCheckEnd { s with su.release := 3 })).map (fun t => (t.su.release, t.mir.dirty)) = some (3, false) := by
  unfold JobAtDevice; decide +kernel
/-- Mount at a stage, with what it has seen. -/
def mounting (m : Mount) (j : Job) : State := { starting .mount j with su.mount := m }
def header1 : PageHeader := ⟨6#32, ⟨0#32, 0#32, 0#32, 0#32⟩, ⟨false, true, false, false⟩⟩
theorem witness_Mount : let s := mounting ⟨.leads, [(1200, .valid header1)], []⟩ (.suPage 2047 0)
    let p := mounting ⟨.pages, [], [.valid header1, .neither]⟩ (.suPage 1200 15)
    JobAtDevice s (.suPage 2047 0) ∧ s.com.held = none ∧ newestLead s.su.mount.seen none = some (1200, 6#32) ∧
    JobAtDevice p (.suPage 1200 15) ∧ p.su.mount.pages ++ [.erased] = [] ++ .valid header1 :: [.neither, .erased] ∧
    (nextOf (exec .readJobEnd p)).map (fun t => (t.com.headPage, t.com.nextPage)) = some (2, 8#32) ∧
    newer 0#32 0xFFFFFFFF#32 = true ∧ newer 5#32 6#32 = false ∧
    JobAtDevice (mounting ⟨.first, [], []⟩ (.suBlank 256)) (.suBlank 256) ∧ (mounting ⟨.first, [], []⟩ (.suBlank 256)).su.phase = .mount ∧
    JobAtDevice (mounting ⟨.spare, [], []⟩ (.suBlank 257)) (.suBlank 257) ∧ (mounting ⟨.spare, [], []⟩ (.suBlank 257)).memoryWf = true ∧
    (mounting ⟨.first, [], []⟩ (.suBlank 256)).su.mount.classAt (ringNext (ringSkip [] 0 256)) = .erased := by
  unfold JobAtDevice; decide +kernel
/-- Recovery reads the slot of a sequence of class 1. -/
def recovering (cells : List (Nat × Code)) (cap : Nat) : State :=
  ({ run0.inPower .starting with
    su := { run0.su with phase := .recovery, recovery := some ⟨1, 0#32⟩ }, prof.classes.c1.capacity := cap, dram.cells := cells } : State).grants
    (.source .stager (.read 64 16))
theorem witness_Recovery : let rs := readDram (writeDram [] 64 (slotWords rec1 0#32)) 64 16
    (recovering [] 32).su.recovery = some ⟨1, 0#32⟩ ∧ (recovering [] 32).dram.entryReq = none ∧ slotAccepted rs 0#32 = true ∧
    slotAccepted (readDram [] 64 16) 0#32 = false ∧ firstBad (readDram [(65, 3#39)] 64 16) = some (65, 6#7) ∧
    (∀ j, (1 : ClassId) < j → (run0.prof.classes.get j).configured = false) ∧ (run0.prof.classes.get 1).configured = true ∧
    (nextOf (exec .recoveryReadComplete (recovering (writeDram [] 64 (slotWords rec1 0#32)) 32))).map (fun t => t.com.queues.c1) = some [0#32] ∧
    (nextOf (exec .recoveryReadComplete (recovering [] 32))).map (fun t => (t.pow.state, t.su.ready, t.stg.outbox.length)) =
      some (.run, true, 1) := by decide +kernel
/-- A slot with a Corrected word is taken back; one with an Uncorrectable word is reported, and the last class opens. -/
theorem witness_Recovery_ecc : let cells := writeDram [] 64 (slotWords rec1 0#32)
    let flip (n : Code) := writeCell dramDefault cells 68 (readCell dramDefault cells 68 ^^^ n)
    correctedCount (readDram (flip 1#39) 64 16) = 1 ∧ badCount (readDram (flip 3#39) 64 16) = 1 ∧
    slotAccepted (readDram (flip 1#39) 64 16) 0#32 = true ∧ slotAccepted (readDram (flip 3#39) 64 16) 0#32 = false ∧
    (nextOf (exec .recoveryReadComplete (recovering (flip 1#39) 32))).map (fun t => (t.com.queues.c1, t.dram.correction, t.dram.corrected))
      = some ([0#32], [68], 1) ∧
    (nextOf (exec .recoveryReadComplete (recovering (flip 3#39) 32))).map (fun t => (t.su.ready, t.dram.uncorrectable, t.stg.outbox.length))
      = some (true, 1, 2) := by decide +kernel
theorem witness_ColdOpen : let s := { mounting ⟨.spare, [], []⟩ (.suBlank 257) with flash.cells := [(257 * 1024, 0#32)] }
    JobAtDevice s (.suBlank 257) ∧ s.su.phase = .mount ∧ s.su.mount.stage = .spare ∧ s.su.warm = false ∧
    (∃ i, i < 1024 ∧ readCell erasedWord s.flash.cells (257 * 1024 + i) ≠ erasedWord) := by
  unfold JobAtDevice; exact ⟨⟨rfl, rfl⟩, rfl, rfl, rfl, 0, by decide, by decide +kernel⟩
/-- A warm mount ends at a block that is not blank or at the spare target, and RECOVERY reads the slot of class 0's first sequence. -/
theorem witness_MountEnds : let s : State := { mounting ⟨.spare, [], []⟩ (.suBlank 257) with
      flash.cells := [(257 * 1024, 0#32)], su.warm := true, stg.rings.c0.next := 3#32 }
    let f : State := { mounting ⟨.first, [], []⟩ (.suBlank 256) with prof.spareTarget := 0, su.warm := true }
    let seen (t : State) := (t.su.phase, t.su.recovery, t.dram.waiting.stager, t.flash.startup)
    (nextOf (exec .blankCheckEnd s)).map seen =
      some (.recovery, some ⟨0, 3#32⟩, some (.read (s.prof.classes.c0.base / 4 + 48) 16), []) ∧
    (nextOf (exec .blankCheckEnd f)).map (fun t => (t.su.phase, t.com.headPage)) = some (.recovery, 0) ∧
    (nextOf (exec .blankCheckEnd (mounting ⟨.first, [], []⟩ (.suBlank 256)))).map (fun t => (t.su.phase, t.flash.startup)) =
      some (.mount, [.suBlank 257]) := by decide +kernel

end Sys2Proof.Machine
end

