-- ==== Sys2Proof/Proofs/Journal.lean ====
section
/-! PROOFS. The journal windows (R6 to R14): what abandonment, an opening word, a payload word and a burst do, and the statements
about them. -/

namespace Sys2Proof.Machine

open Sys2Proof Sys2Proof.Machine Sys2Proof.Machine.Claims

/-! ## Taking and answering a journal write -/

/-- The take of a request writes the relapse timer and nothing else (R154). -/
theorem State.take_eq (p : Port) (s : State) : s.take p = { s with pow := { s.pow with relapse := relapseAfter s p } } := by
  cases p <;> rfl

theorem State.gate_congr (s u : State) (p : Port) (hd : u.dram = s.dram) (hp : u.pow = s.pow) (hq : u.quiet = s.quiet) :
    u.gate p = s.gate p := by
  simp only [State.gate, hd, hp, hq]

theorem wholeWord_eq_true (r : Request) (h : r.enables = 0xF#4) : wholeWord r = true := by simp [wholeWord, h]

theorem wholeWord_eq_false (r : Request) (h : r.enables ≠ 0xF#4) : wholeWord r = false := by simp [wholeWord, h]

/-- A journal write whose effect leaves the ports and the supply alone is answered once, and nothing else changes (R11, R110). -/
theorem State.journalAnswer_eq (s u : State) (p : Port) (r : Request) (rest : List Request) (x : Option Reason)
    (hc : Current s p r rest) (hp : u.ports = s.ports) (hsu : u.su = s.su) :
    State.journalAnswer p (x, u) = { u with ports := answered s p rest (journalResponse x) } := by
  obtain ⟨hs, -, hq, hl⟩ := hc
  rw [State.journalAnswer, State.answer_served p _ u r rest (hsu ▸ hs) (hp ▸ hq) hl, hp]
  rfl

/-- A journal write refused without any other effect is refused at once. -/
theorem State.journalAnswer_refused (s : State) (p : Port) (r : Request) (rest : List Request) (x : Reason)
    (hc : Current s p r rest) : State.journalAnswer p (some x, s.take p) = refusedAtOnce s p rest x := by
  rw [State.journalAnswer_eq s _ p r rest _ hc (by simp) (by simp), State.take_eq]
  rfl

/-! ## The three commands on a current request that is served -/

section Served

variable {s : State} {p : Port} {r : Request} {rest : List Request} {c : ClassId} {k : Nat}

theorem exec_openingWord (hc : Current s p r rest) (hg : s.gate p = .serve) (hl : lookup s.prof.windows r = .opening c) :
    exec (.openingWord p) s =
      .next (State.journalAnswer p ((s.take p).openRecord p c (wholeWord r) (wordAt r.data 0))) := by
  obtain ⟨hs, hu, hq, -⟩ := hc
  simp [exec, execOpeningWord, taking_served s p r rest hs hu hq hg, hl, front_cons s p r rest hq]

theorem exec_payloadWord (hc : Current s p r rest) (hg : s.gate p = .serve) (hl : lookup s.prof.windows r = .payload c k) :
    exec (.payloadWord p) s =
      .next (State.journalAnswer p ((s.take p).putPayload p c k (wholeWord r) (wordAt r.data 0))) := by
  obtain ⟨hs, hu, hq, -⟩ := hc
  simp [exec, execPayloadWord, taking_served s p r rest hs hu hq hg, hl, front_cons s p r rest hq]

theorem exec_journalBurst (hc : Current s p r rest) (hg : s.gate p = .serve) (hl : lookup s.prof.windows r = .burst c k) :
    exec (.journalBurst p) s = .next (State.journalAnswer p ((s.take p).journalWords p c k r.data)) := by
  obtain ⟨hs, hu, hq, -⟩ := hc
  simp [exec, execJournalBurst, taking_served s p r rest hs hu hq hg, hl, front_cons s p r rest hq]

end Served

/-! ## Contexts, reservations, completion -/

@[simp] theorem State.context_setContext (p : Port) (c : ClassId) (x : Option OpenCtx) (s : State) :
    (s.setContext p c x).context p c = x := by
  simp [State.context]

@[simp] theorem State.context_take (p q : Port) (c : ClassId) (s : State) : (s.take p).context q c = s.context q c := by
  simp [State.context]

@[simp] theorem State.unclaimed_take (p : Port) (c : ClassId) (s : State) : (s.take p).unclaimed c = s.unclaimed c := by
  simp [State.unclaimed]

theorem State.reserve_eq (c : ClassId) (s : State) : s.reserve c = reservedOne s c := rfl

/-- What completion does (R12, R18, R19, R170), for a TIMESET and for any other kind, at either port. -/
theorem State.complete_eq (p : Port) (c : ClassId) (kind : Byte) (urgent : Bool) (payload : List Word) (s : State) :
    s.complete p c kind urgent payload = completed s p c kind urgent payload := by
  by_cases hk : kind = 0xEE#8 <;> cases p <;>
    simp [State.complete, completed, completedRecord, timesetKind, hk, State.loadTime, State.stamp, State.rearmFor,
      State.rearm, State.setContext, Origin.ofPort, bne, Bool.beq_eq_decide_eq]

theorem Four.set_set {α : Type} (f : Four α) (i : Fin 4) (v w : α) : (f.set i v).set i w = f.set i w := by
  match i with
  | 0 | 1 | 2 | 3 => rfl

/-- Completion empties the context, whatever the context held. -/
theorem completed_setContext (p : Port) (c : ClassId) (x : Option OpenCtx) (kind : Byte) (urgent : Bool) (payload : List Word)
    (s : State) : completed (s.setContext p c x) p c kind urgent payload = completed s p c kind urgent payload := by
  simp [completed, completedRecord, Four.set_set]

@[simp] theorem context_completed (p : Port) (c : ClassId) (kind : Byte) (urgent : Bool) (payload : List Word) (s : State) :
    (completed s p c kind urgent payload).context p c = none := by
  simp [completed, State.context]

/-! ## Abandonment (R14) -/

/-- An offer writes the outbox, the LOST count, dirty and the attention set (R31, R34). -/
theorem State.offer_eq (r : Record) (s : State) :
    s.offer r = { s with
      stg := { s.stg with outbox := (s.offer r).stg.outbox, lost := (s.offer r).stg.lost }
      mir := { s.mir with dirty := true, attention := (s.offer r).mir.attention } } := by
  by_cases h : s.stg.outbox.length < 8
  · rw [State.offer_room r s h]
  · rw [State.offer_full r s (Nat.le_of_not_lt h)]
    rfl

theorem Cause.ix_ne (a b : Cause) (h : a ≠ b) : a.ix ≠ b.ix := by
  cases a <;> cases b <;> simp [Cause.ix] at h ⊢

theorem State.offer_offered (r : Record) (s : State) : Offered s (s.offer r) r := by
  constructor
  · intro h
    rw [State.offer_room r s h]
    exact ⟨rfl, rfl, fun _ _ => rfl⟩
  · intro h
    rw [State.offer_full r s h]
    refine ⟨rfl, rfl, by simp, fun d hd => ?_⟩
    rw [State.raise_mir]
    exact Eight.get_set_ne _ _ _ _ (Cause.ix_ne d .lost (by simpa using hd))

/-- An open context is abandoned as R14 says. -/
theorem State.abandon_abandoned (p : Port) (c : ClassId) (cause : Nat) (s : State) (x : OpenCtx) (h : s.context p c = some x) :
    Abandoned s (s.abandon p c cause) p c x cause := by
  simp only [State.abandon, h]
  exact ⟨State.offer_eq _ _, State.offer_offered _ ((s.setContext p c none).release c)⟩

@[simp] theorem State.context_abandon (p : Port) (c : ClassId) (cause : Nat) (s : State) :
    (s.abandon p c cause).context p c = none := by
  cases h : s.context p c with
  | none => rwa [State.abandon_none p c cause s h]
  | some x =>
    rw [(State.abandon_abandoned p c cause s x h).1]
    simp [State.context]

/-- An abandonment neither reads nor writes the relapse timer, so it commutes with a take. -/
theorem State.abandon_take (p q : Port) (c : ClassId) (cause : Nat) (s : State) :
    (s.take q).abandon p c cause = (s.abandon p c cause).take q := by
  cases q with
  | svp => rfl
  | mnp =>
    simp only [State.abandon, State.context_take]
    cases s.context p c with
    | none => rfl
    | some x =>
      simp only [State.offerNow, State.offer]
      rw [apply_ite (State.take .mnp)]
      rfl

/-! ## An opening word (R8, R9) -/

/-! The checks of R8, one equation for each word that the first failing check names, and one for a word that passes them all. -/

section Checks

variable {params : ClassParams} {p : Port} {whole : Bool} {w : Word}

theorem portKind_iff (k : Byte) : portKind k = true ↔ 1 ≤ k.toNat ∧ k.toNat ≤ 0xEE := by simp [portKind]

theorem openingRefusal_width (hw : whole = false) : openingRefusal params p whole w = some .width := by
  simp [openingRefusal, hw]

theorem openingRefusal_kind (hw : whole = true) (hk : ¬ (1 ≤ (kindOf w).toNat ∧ (kindOf w).toNat ≤ 0xEE)) :
    openingRefusal params p whole w = some .kind := by
  simp [openingRefusal, hw, mt (portKind_iff _).mp hk]

theorem openingRefusal_protect (hw : whole = true) (hk : kindOf w = 0xEE#8) (hp : p = .mnp) :
    openingRefusal params p whole w = some .protect := by
  simp [openingRefusal, hw, hk, hp, timesetKind, portKind]

theorem openingRefusal_timesetLength (hw : whole = true) (hk : kindOf w = 0xEE#8) (hp : p = .svp) (hn : lengthOf w ≠ 2) :
    openingRefusal params p whole w = some .kind := by
  simp [openingRefusal, hw, hk, hp, hn, timesetKind, portKind]

theorem openingRefusal_range (hw : whole = true) (hk : 1 ≤ (kindOf w).toNat ∧ (kindOf w).toNat ≤ 0xEE)
    (ht : kindOf w ≠ 0xEE#8) (hn : 12 < lengthOf w) : openingRefusal params p whole w = some .range := by
  simp [openingRefusal, hw, (portKind_iff _).mpr hk, timesetKind, ht, hn]

/-- A word of a kind a port may open, of a length its kind allows, is judged by the class's port mask alone. -/
theorem openingRefusal_fits (hw : whole = true) (hk : 1 ≤ (kindOf w).toNat ∧ (kindOf w).toNat ≤ 0xEE)
    (hf : ¬ (kindOf w = 0xEE#8 ∧ p = .mnp) ∧ ¬ (kindOf w = 0xEE#8 ∧ lengthOf w ≠ 2) ∧ lengthOf w ≤ 12) :
    openingRefusal params p whole w = if params.admits p then none else some .port := by
  obtain ⟨hp, ht, hn⟩ := hf
  simp only [openingRefusal, hw, (portKind_iff _).mpr hk, timesetKind, if_neg hp, if_neg ht, if_neg (Nat.not_lt.mpr hn)]
  cases params.admits p <;> rfl

theorem lengthOf_le_of_passes (h : openingRefusal params p whole w = none) : lengthOf w ≤ 12 := by
  refine Nat.le_of_not_lt fun hn => ?_
  simp only [openingRefusal, if_pos hn] at h
  (repeat' split at h) <;> contradiction

end Checks

/-- The record before an opening word is abandoned first, whatever becomes of the word (R9, R14). -/
theorem State.openRecord_abandon (p : Port) (c : ClassId) (whole : Bool) (w : Word) (s : State) :
    s.openRecord p c whole w = (s.abandon p c causeReopen).openRecord p c whole w := by
  rw [State.openRecord, State.openRecord, State.abandon_none p c causeReopen (s.abandon p c causeReopen) (by simp)]

section Opening

variable {s : State} {p : Port} {c : ClassId} {whole : Bool} {w : Word}

theorem State.openRecord_refused (x : Reason) (hx : s.context p c = none)
    (hr : openingRefusal (s.prof.classes.get c) p whole w = some x) : s.openRecord p c whole w = (some x, s) := by
  simp [State.openRecord, State.abandon_none p c _ s hx, hr]

theorem State.openRecord_full (hx : s.context p c = none)
    (hr : openingRefusal (s.prof.classes.get c) p whole w = none) (hu : s.unclaimed c < openingNeeds c) :
    s.openRecord p c whole w = (some .full, s) := by
  simp [State.openRecord, State.abandon_none p c _ s hx, hr, hu]

theorem State.openRecord_opens (hx : s.context p c = none)
    (hr : openingRefusal (s.prof.classes.get c) p whole w = none) (hu : openingNeeds c ≤ s.unclaimed c) (hn : 1 ≤ lengthOf w) :
    s.openRecord p c whole w = (none, (reservedOne s c).setContext p c (some (newContext w))) := by
  have hn0 : lengthOf w ≠ 0 := Nat.one_le_iff_ne_zero.mp hn
  simp [State.openRecord, State.abandon_none p c _ s hx, hr, Nat.not_lt.mpr hu, hn0, State.reserve_eq]

theorem State.openRecord_completes (hx : s.context p c = none)
    (hr : openingRefusal (s.prof.classes.get c) p whole w = none) (hu : openingNeeds c ≤ s.unclaimed c) (hn : lengthOf w = 0) :
    s.openRecord p c whole w = (none, completed (reservedOne s c) p c (kindOf w) (urgentOf w) []) := by
  simp [State.openRecord, State.abandon_none p c _ s hx, hr, Nat.not_lt.mpr hu, hn, State.reserve_eq, State.complete_eq]

end Opening

/-! ### OPENING_WORD on a current request that is served -/

section OpeningCommand

variable {s : State} {p : Port} {r : Request} {rest : List Request} {c : ClassId}

/-- At an open context the word is judged as it would be with the record abandoned beforehand (R9, R14). -/
theorem exec_openingWord_reopens (hc : Current s p r rest) (hg : s.gate p = .serve) (hl : lookup s.prof.windows r = .opening c)
    {x : OpenCtx} (hx : s.context p c = some x) :
    ∃ u, Abandoned s u p c x 1 ∧ Current u p r rest ∧ u.context p c = none ∧ exec (.openingWord p) s = exec (.openingWord p) u := by
  have hcu : Current (s.abandon p c causeReopen) p r rest := by simpa [Current] using hc
  have hgu : (s.abandon p c causeReopen).gate p = .serve := by
    rw [State.gate_congr s _ p (by simp) (by simp) (by simp), hg]
  refine ⟨s.abandon p c causeReopen, State.abandon_abandoned p c causeReopen s x hx, hcu, by simp, ?_⟩
  rw [exec_openingWord hc hg hl, exec_openingWord hcu hgu (by simpa using hl), State.openRecord_abandon,
    State.abandon_take]

theorem exec_openingWord_refused (hc : Current s p r rest) (hg : s.gate p = .serve) (hl : lookup s.prof.windows r = .opening c)
    (hx : s.context p c = none) {reason : Reason}
    (hr : openingRefusal (s.prof.classes.get c) p (wholeWord r) (wordAt r.data 0) = some reason) :
    exec (.openingWord p) s = .next (refusedAtOnce s p rest reason) := by
  rw [exec_openingWord hc hg hl, State.openRecord_refused reason (by simpa using hx) (by simpa using hr),
    State.journalAnswer_refused s p r rest reason hc]

theorem exec_openingWord_full (hc : Current s p r rest) (hg : s.gate p = .serve) (hl : lookup s.prof.windows r = .opening c)
    (hx : s.context p c = none) (hr : openingRefusal (s.prof.classes.get c) p (wholeWord r) (wordAt r.data 0) = none)
    (hu : s.unclaimed c < openingNeeds c) : exec (.openingWord p) s = .next (refusedAtOnce s p rest .full) := by
  rw [exec_openingWord hc hg hl, State.openRecord_full (by simpa using hx) (by simpa using hr) (by simpa using hu),
    State.journalAnswer_refused s p r rest .full hc]

theorem exec_openingWord_opens (hc : Current s p r rest) (hg : s.gate p = .serve) (hl : lookup s.prof.windows r = .opening c)
    (hx : s.context p c = none) (hr : openingRefusal (s.prof.classes.get c) p (wholeWord r) (wordAt r.data 0) = none)
    (hu : openingNeeds c ≤ s.unclaimed c) (hn : 1 ≤ lengthOf (wordAt r.data 0)) :
    exec (.openingWord p) s = .next (doneIn s p rest
      ((reservedOne s c).setContext p c (some (newContext (wordAt r.data 0))))) := by
  rw [exec_openingWord hc hg hl, State.openRecord_opens (by simpa using hx) (by simpa using hr) (by simpa using hu) hn,
    State.journalAnswer_eq s _ p r rest none hc (by simp [reservedOne]) (by simp [reservedOne]), State.take_eq]
  rfl

theorem exec_openingWord_completes (hc : Current s p r rest) (hg : s.gate p = .serve)
    (hl : lookup s.prof.windows r = .opening c) (hx : s.context p c = none)
    (hr : openingRefusal (s.prof.classes.get c) p (wholeWord r) (wordAt r.data 0) = none)
    (hu : openingNeeds c ≤ s.unclaimed c) (hn : lengthOf (wordAt r.data 0) = 0) :
    exec (.openingWord p) s = .next (doneIn s p rest
      (completed (reservedOne s c) p c (kindOf (wordAt r.data 0)) (urgentOf (wordAt r.data 0)) [])) := by
  rw [exec_openingWord hc hg hl, State.openRecord_completes (by simpa using hx) (by simpa using hr) (by simpa using hu) hn,
    State.journalAnswer_eq s _ p r rest none hc (by simp [completed, reservedOne]) (by simp [completed, reservedOne]),
    State.take_eq]
  rfl

end OpeningCommand

/-- Settles O17: an open context through the state with its record abandoned; an empty one by the outcome of the checks of R8,
then of the reservation. -/
theorem openingWordCheckedReservedOpened : Obligations.OpeningWordCheckedReservedOpened := by
  unfold Obligations.OpeningWordCheckedReservedOpened
  intro s p r rest c hc hg hl
  refine ⟨fun x hx => exec_openingWord_reopens hc hg hl hx, fun hx => ?_⟩
  intro w kind whole known fits refuse
  have refused {x : Reason} (h : openingRefusal (s.prof.classes.get c) p (wholeWord r) w = some x) : refuse x :=
    exec_openingWord_refused hc hg hl hx h
  have judged (hw : whole) (hk : known) (hf : fits) : openingRefusal (s.prof.classes.get c) p (wholeWord r) w =
      if (s.prof.classes.get c).admits p then none else some .port :=
    openingRefusal_fits (wholeWord_eq_true r hw) hk hf
  have passes (hw : whole) (hk : known) (hf : fits) (ha : (s.prof.classes.get c).admits p = true) :
      openingRefusal (s.prof.classes.get c) p (wholeWord r) w = none := by rw [judged hw hk hf, if_pos ha]
  exact ⟨fun hw => refused (openingRefusal_width (wholeWord_eq_false r hw)),
    fun hw hk => refused (openingRefusal_kind (wholeWord_eq_true r hw) hk),
    fun hw hk hp => refused (openingRefusal_protect (wholeWord_eq_true r hw) hk hp),
    fun hw hk hp hn => refused (openingRefusal_timesetLength (wholeWord_eq_true r hw) hk hp hn),
    fun hw hk ht hn => refused (openingRefusal_range (wholeWord_eq_true r hw) hk ht hn),
    fun hw hk hf ha => refused (by simp [judged hw hk hf, ha]),
    fun hw hk hf ha hu => exec_openingWord_full hc hg hl hx (passes hw hk hf ha) hu,
    fun hw hk hf ha hu => ⟨fun hn => exec_openingWord_opens hc hg hl hx (passes hw hk hf ha) hu hn,
      fun hn => exec_openingWord_completes hc hg hl hx (passes hw hk hf ha) hu hn⟩⟩

/-! ## A payload word (R10, R12) -/

theorem OpenCtx.full_of_present (y : OpenCtx) (payload : List Word) (h : y.words.take y.n = payload.map some) :
    y.full = true ∧ y.payload = payload := by
  simp [OpenCtx.full, OpenCtx.payload, h, Function.comp_def]

theorem OpenCtx.full_of_missing (y : OpenCtx) (h : ∃ v ∈ y.words.take y.n, v = none) : y.full = false := by
  obtain ⟨v, hv, rfl⟩ := h
  exact List.all_eq_false.mpr ⟨none, hv, by simp⟩

section Payload

variable {s : State} {p : Port} {c : ClassId} {k : Nat} {whole : Bool} {w : Word} {x : OpenCtx}

theorem State.putPayload_order (hx : s.context p c = none) : s.putPayload p c k whole w = (some .order, s) := by
  simp [State.putPayload, payloadRefusal, hx]

theorem State.putPayload_range (hx : s.context p c = some x) (hk : x.n < k) : s.putPayload p c k whole w = (some .range, s) := by
  simp [State.putPayload, payloadRefusal, hx, hk]

theorem State.putPayload_width (hx : s.context p c = some x) (hk : k ≤ x.n) (hw : whole = false) :
    s.putPayload p c k whole w = (some .width, s) := by
  simp [State.putPayload, payloadRefusal, hx, Nat.not_lt.mpr hk, hw]

theorem State.putPayload_stores (hx : s.context p c = some x) (hk : k ≤ x.n) (hw : whole = true)
    (hf : (x.store k w).full = false) : s.putPayload p c k whole w = (none, s.setContext p c (some (x.store k w))) := by
  simp [State.putPayload, payloadRefusal, hx, Nat.not_lt.mpr hk, hw, hf]

theorem State.putPayload_completes (hx : s.context p c = some x) (hk : k ≤ x.n) (hw : whole = true)
    (hf : (x.store k w).full = true) :
    s.putPayload p c k whole w = (none, completed s p c x.kind x.urgent (x.store k w).payload) := by
  simp [State.putPayload, payloadRefusal, hx, Nat.not_lt.mpr hk, hw, hf, State.complete_eq]
  rfl

end Payload

/-- Settles O18: each of the five outcomes of a payload word at the context, answered at the port. -/
theorem payloadWordStoredOrCompletes : Obligations.PayloadWordStoredOrCompletes := by
  unfold Obligations.PayloadWordStoredOrCompletes
  intro s p r rest c k hc hg hl
  rw [exec_payloadWord hc hg hl]
  have refused := State.journalAnswer_refused s p r rest
  refine ⟨fun hx => by rw [State.putPayload_order (by simpa using hx), refused _ hc], ?_⟩
  intro x hx y
  have hxt : (s.take p).context p c = some x := by simpa using hx
  refine ⟨fun hk => by rw [State.putPayload_range hxt hk, refused _ hc],
    fun hk hw => by rw [State.putPayload_width hxt hk (wholeWord_eq_false r hw), refused _ hc],
    fun hk hw hm => ?stores, fun hk hw payload hp => ?completes⟩
  case stores =>
    rw [State.putPayload_stores hxt hk (wholeWord_eq_true r hw) (OpenCtx.full_of_missing y hm),
      State.journalAnswer_eq s _ p r rest none hc (by simp) (by simp), State.take_eq]
    rfl
  case completes =>
    obtain ⟨hfull, hpay⟩ := OpenCtx.full_of_present y payload hp
    have hy : y = x.store k (wordAt r.data 0) := rfl
    rw [State.putPayload_completes hxt hk (wholeWord_eq_true r hw) hfull, ← hy, hpay,
      State.journalAnswer_eq s _ p r rest none hc (by simp [completed]) (by simp [completed]), State.take_eq]
    rfl

/-! ## A burst (R11, R12) -/

section Burst

variable {s u : State} {p : Port} {c : ClassId} {k : Nat} {w : Word} {ws : List Word}

theorem State.journalWords_taken (h : s.journalWord p c k true w = (none, u)) :
    State.journalWords p c k (w :: ws) s = State.journalWords p c (k + 1) ws u := by
  simp [State.journalWords, h]

theorem State.journalWords_refused {x : Reason} (h : s.journalWord p c k true w = (some x, u)) :
    State.journalWords p c k (w :: ws) s = (some x, u) := by
  simp [State.journalWords, h]

theorem State.journalWord_opening : s.journalWord p c 0 true w = s.openRecord p c true w := rfl

theorem State.journalWord_payload (h1 : 1 ≤ k) (h12 : k ≤ 12) : s.journalWord p c k true w = s.putPayload p c k true w := by
  simp [State.journalWord, Nat.one_le_iff_ne_zero.mp h1, h12]

theorem State.journalWord_beyond (h : 13 ≤ k) : s.journalWord p c k true w = (some .range, s) := by
  simp [State.journalWord, show k ≠ 0 by omega, show ¬ k ≤ 12 by omega]

end Burst

/-- The context that opening word `w` opened, with the words `pre` received in order from word 1 on. -/
def receiving (w : Word) (pre : List Word) : OpenCtx :=
  { newContext w with words := pre.map some ++ List.replicate (12 - pre.length) none }

theorem receiving_nil (w : Word) : receiving w [] = newContext w := rfl

theorem receiving_store (w v : Word) (pre : List Word) (h : pre.length < 12) :
    (receiving w pre).store (pre.length + 1) v = receiving w (pre ++ [v]) := by
  obtain ⟨m, hm⟩ : ∃ m, 12 - pre.length = m + 1 := ⟨11 - pre.length, by omega⟩
  have hm' : 12 - (pre.length + 1) = m := by omega
  simp [receiving, OpenCtx.store, hm, hm', List.replicate_succ]

theorem receiving_full (w : Word) (pre : List Word) (h : pre.length = lengthOf w) :
    (receiving w pre).full = true ∧ (receiving w pre).payload = pre :=
  OpenCtx.full_of_present _ pre (by simp [receiving, newContext, ← h])

theorem receiving_not_full (w : Word) (pre : List Word) (h : pre.length < lengthOf w) (h12 : lengthOf w ≤ 12) :
    (receiving w pre).full = false := by
  obtain ⟨m, hm⟩ : ∃ m, 12 - pre.length = m + 1 := ⟨11 - pre.length, by omega⟩
  obtain ⟨j, hj⟩ : ∃ j, lengthOf w - pre.length = j + 1 := ⟨lengthOf w - pre.length - 1, by omega⟩
  refine OpenCtx.full_of_missing _ ⟨none, ?_, rfl⟩
  simp [receiving, newContext, List.take_append, hm, hj, List.replicate_succ]

/-- The payload words of a burst that are still missing complete the record, whatever follows them (R11, R12). -/
theorem journalWords_rest_of_payload (p : Port) (c : ClassId) (w : Word) (h12 : lengthOf w ≤ 12) (more : List Word) :
    ∀ (ws pre : List Word) (s : State), ws ≠ [] → pre.length + ws.length = lengthOf w →
      s.context p c = some (receiving w pre) →
      State.journalWords p c (pre.length + 1) (ws ++ more) s =
        State.journalWords p c (lengthOf w + 1) more (completed s p c (kindOf w) (urgentOf w) (pre ++ ws)) := by
  intro ws
  induction ws with
  | nil => exact fun _ _ h => absurd rfl h
  | cons v vs ih =>
    intro pre s _ hlen hx
    rw [List.length_cons] at hlen
    have hk : pre.length + 1 ≤ (receiving w pre).n := by
      show pre.length + 1 ≤ lengthOf w
      omega
    have hstore := receiving_store w v pre (by omega)
    have hword : s.journalWord p c (pre.length + 1) true v = s.putPayload p c (pre.length + 1) true v :=
      State.journalWord_payload (by omega) (by omega)
    have hlen' : (pre ++ [v]).length = pre.length + 1 := by simp
    cases vs with
    | nil =>
      have hn : (pre ++ [v]).length = lengthOf w := by simpa using hlen
      obtain ⟨hfull, hpay⟩ := receiving_full w (pre ++ [v]) hn
      have hlast := State.putPayload_completes hx hk rfl (by rw [hstore]; exact hfull)
      rw [hstore, hpay] at hlast
      rw [List.singleton_append, State.journalWords_taken (hword.trans hlast), ← hlen', hn]
      rfl
    | cons v' vs =>
      have hn : (pre ++ [v]).length < lengthOf w := by simp at hlen ⊢; omega
      have hnext := State.putPayload_stores hx hk rfl (by rw [hstore]; exact receiving_not_full w _ hn h12)
      rw [hstore] at hnext
      rw [List.cons_append, State.journalWords_taken (hword.trans hnext), ← hlen',
        ih (pre ++ [v]) _ (by simp) (by simp at hlen ⊢; omega) (by simp), completed_setContext]
      simp

/-- A burst whose opening word passes its checks and is granted a slot, with all its payload words behind it, completes the
record, and goes on with what follows (R12). -/
theorem journalWords_record (s : State) (p : Port) (c : ClassId) (w : Word) (payload more : List Word)
    (hx : s.context p c = none) (hr : openingRefusal (s.prof.classes.get c) p true w = none)
    (hu : openingNeeds c ≤ s.unclaimed c) (hn : payload.length = lengthOf w) :
    State.journalWords p c 0 (w :: (payload ++ more)) s =
      State.journalWords p c (lengthOf w + 1) more (completed (reservedOne s c) p c (kindOf w) (urgentOf w) payload) := by
  cases payload with
  | nil =>
    have hn : lengthOf w = 0 := hn.symm
    rw [State.journalWords_taken (State.journalWord_opening.trans (State.openRecord_completes hx hr hu hn)), hn]
    rfl
  | cons v vs =>
    have hopen := State.openRecord_opens hx hr hu (by rw [← hn]; simp)
    rw [State.journalWords_taken (State.journalWord_opening.trans hopen)]
    have hctx : ((reservedOne s c).setContext p c (some (newContext w))).context p c = some (receiving w []) := by
      rw [State.context_setContext, receiving_nil]
    have hrest := journalWords_rest_of_payload p c w (lengthOf_le_of_passes hr) more (v :: vs) [] _ (by simp)
      (by simpa using hn) hctx
    rw [completed_setContext] at hrest
    exact hrest

/-- Settles O19: the command is the words of the burst and one answer; one word goes by its offset; a whole record completes. -/
theorem journalBurstTakenWordByWord : Obligations.JournalBurstTakenWordByWord := by
  unfold Obligations.JournalBurstTakenWordByWord
  refine ⟨⟨?command, fun s p c k w ws => ?word⟩, fun s p c w payload hx hr hu hn => ⟨?record, fun h11 v more => ?beyond⟩⟩
  case command =>
    intro s p r rest c k hc hg hl out
    rw [exec_journalBurst hc hg hl, State.take_eq]
    exact congrArg _ (State.journalAnswer_eq s _ p r rest _ hc (by simp) (by simp))
  case word =>
    exact ⟨rfl, fun _ => State.journalWords_taken, fun _ _ => State.journalWords_refused,
      fun hk => hk ▸ State.journalWord_opening, State.journalWord_payload, State.journalWord_beyond⟩
  case record =>
    have h := journalWords_record s p c w payload [] hx hr hu hn
    rwa [List.append_nil] at h
  case beyond =>
    rw [journalWords_record s p c w payload (v :: more) hx hr hu hn]
    refine State.journalWords_refused ((State.journalWord_payload (by omega) (by omega)).trans ?_)
    exact State.putPayload_order (context_completed ..)

end Sys2Proof.Machine
end

/-! PROOFS. What every step keeps: the queue of commands, the open-row table, the lock store, the two memories, the outbox, the
counts. Each statement is one fact about all commands, then one about the step. -/

namespace Sys2Proof.Machine

open Sys2Proof Sys2Proof.Machine Sys2Proof.Machine.Claims

/-- A lawful test of equality is the decision of it. -/
theorem beq_decides {α : Type} [BEq α] [LawfulBEq α] [DecidableEq α] (a b : α) : (a == b) = decide (a = b) :=
  Bool.eq_iff_iff.mpr (by rw [beq_iff_eq, decide_eq_true_iff])

/-! ## A step -/

/-- All that a step can be: a millisecond on an empty queue, or the command at the front on the rest of the queue. -/
theorem step_cases {s t : State} (h : step s = .next t) :
    s.pending = [] ∧ t = s.pass 1 ∨ ∃ c rest, s.pending = c :: rest ∧ exec c { s with pending := rest } = .next t := by
  unfold step at h
  split at h
  next hp => cases h; exact .inl ⟨hp, rfl⟩
  next c rest hp => exact .inr ⟨c, rest, hp, h⟩

/-- What holds of a state after a millisecond and after every command holds after every step, where it does not look at the queue. -/
theorem step_induct {P : State → Prop} {s t : State} (h : step s = .next t) (hp : P s)
    (queue : ∀ rest, P s → P { s with pending := rest }) (pass : P s → P (s.pass 1))
    (command : ∀ c u, P u → exec c u = .next t → P t) : P t := by
  rcases step_cases h with ⟨-, rfl⟩ | ⟨c, rest, -, he⟩
  · exact pass hp
  · exact command c _ (queue rest hp) he

/-- All that the result of a burn job can do: nothing without a burn, a requeue, or the step it goes to. -/
theorem State.burnTakes_cases (f : Burn → State → State) (s : State) :
    s.burnTakes f = s ∨ ∃ b, s.img.burn = some b ∧ (s.burnTakes f = s.burnRequeue b ∨ s.burnTakes f = f b s) := by
  unfold State.burnTakes
  split
  next => exact .inl rfl
  next b hb => split <;> exact .inr ⟨b, hb, by simp⟩

/-- The result of a burn job keeps what a requeue and the step it goes to keep. -/
theorem State.burnTakes_ind {P : State → Prop} {f : Burn → State → State} {s : State} (hs : P s)
    (requeue : ∀ b, P (s.burnRequeue b)) (next : ∀ b, s.img.burn = some b → P (f b s)) : P (s.burnTakes f) := by
  rcases State.burnTakes_cases f s with h | ⟨b, hb, h | h⟩ <;> rw [h]
  · exact hs
  · exact requeue b
  · exact next b hb

/-! ## The queue of commands -/

theorem exec_pending {c : Instr} {s t : State} (h : exec c s = .next t) : t.pending = s.pending := by
  have taken (f : Burn → State → State) (u : State) (hf : ∀ b v, (f b v).pending = v.pending) :
      (u.burnTakes f).pending = u.pending := State.burnTakes_keeps State.pending f u (by simp) (fun b => hf b u)
  cases c
  case portRequestArrival | programEnd | eraseEnd | arbiterChoice =>
    simp only [exec, execPortRequestArrival, execProgramEnd, execEraseEnd, execArbiterChoice] at h
    (repeat' split at h) <;> cases h <;> simp [taken]
  all_goals
    cases h
    try dsimp only
    try (repeat' split) <;> try simp [taken, State.beginUrgent_eq]

/-- Settles O2. -/
theorem commandsKeepTheQueue : Obligations.CommandsKeepTheQueue := by
  unfold Obligations.CommandsKeepTheQueue
  exact fun c s t => exec_pending

/-! ## The open-row table (R126, R127) -/

theorem Four.forall_fin {P : Fin 4 → Prop} : (∀ i, P i) ↔ P 0 ∧ P 1 ∧ P 2 ∧ P 3 := by
  simp [Fin.forall_fin_succ]

theorem Eight.forall_fin {P : Fin 8 → Prop} : (∀ i, P i) ↔ P 0 ∧ P 1 ∧ P 2 ∧ P 3 ∧ P 4 ∧ P 5 ∧ P 6 ∧ P 7 := by
  simp [Fin.forall_fin_succ]

theorem Eight.get_mem_toList {α : Type} (f : Eight α) : ∀ i, f.get i ∈ f.toList := by
  simp [Eight.forall_fin, Eight.get, Eight.toList]

theorem Four.mem_toList {α : Type} (f : Four α) (x : α) : x ∈ f.toList ↔ ∃ i, f.get i = x := by
  simp [Four.toList, Fin.exists_fin_succ, eq_comm, Four.get]

/-- The table is in order: a bank is held by one entry, and each rank from 1 to 4 by some entry. -/
theorem rowsWf_iff (t : Four RowEntry) : rowsWf t = true ↔
    (∀ i j b, (t.get i).bank = some b → (t.get j).bank = some b → i = j) ∧
    ∀ r, 1 ≤ r → r ≤ 4 → ∃ i, (t.get i).rank = r := by
  have ranks : ([1, 2, 3, 4].all (fun r => (t.toList.map (·.rank)).contains r) = true) ↔
      ∀ r, 1 ≤ r → r ≤ 4 → ∃ i, (t.get i).rank = r := by
    have mem (r : Nat) : (t.toList.map (·.rank)).contains r = true ↔ ∃ i, (t.get i).rank = r := by
      simp only [List.contains_iff_mem, List.mem_map, Four.mem_toList]
      exact ⟨fun ⟨_, ⟨i, hi⟩, hr⟩ => ⟨i, hi ▸ hr⟩, fun ⟨i, hi⟩ => ⟨_, ⟨i, rfl⟩, hi⟩⟩
    simp only [List.all_cons, List.all_nil, Bool.and_true, Bool.and_eq_true, mem]
    refine ⟨fun ⟨h1, h2, h3, h4⟩ r lo hi => ?_,
      fun h => ⟨h 1 (by omega) (by omega), h 2 (by omega) (by omega), h 3 (by omega) (by omega), h 4 (by omega) (by omega)⟩⟩
    have hr : r = 1 ∨ r = 2 ∨ r = 3 ∨ r = 4 := by omega
    rcases hr with rfl | rfl | rfl | rfl <;> assumption
  have banks : (t.toList.filterMap (·.bank)).Nodup ↔
      ∀ i j b, (t.get i).bank = some b → (t.get j).bank = some b → i = j := by
    obtain ⟨⟨b0, _, _⟩, ⟨b1, _, _⟩, ⟨b2, _, _⟩, ⟨b3, _, _⟩⟩ := t
    simp only [Four.forall_fin, Four.toList, Four.get]
    cases b0 <;> cases b1 <;> cases b2 <;> cases b3 <;> simp <;> grind
  rw [rowsWf, Bool.and_eq_true, decide_eq_true_eq, banks, ranks]

theorem rowsWf_closedRows (n : Nat) : rowsWf (closedRows n) = true := by
  by_cases h : n = 4 <;> simp [rowsWf, closedRows, h, Four.toList]

/-- The entry found is the lowest-numbered that passes the test. -/
theorem findEntry_some {t : Four RowEntry} {q : RowEntry → Bool} {i : Fin 4} (h : findEntry t q = some i) :
    q (t.get i) = true ∧ ∀ j, j < i → q (t.get j) = false := by
  unfold findEntry at h
  (repeat' split at h) <;> cases h <;> refine ⟨by assumption, ?_⟩ <;> simp_all [Four.forall_fin, Four.get]

theorem findEntry_none {t : Four RowEntry} {q : RowEntry → Bool} (h : findEntry t q = none) (j : Fin 4) : q (t.get j) = false := by
  revert j
  unfold findEntry at h
  (repeat' split at h) <;> simp_all [Four.forall_fin, Four.get]

/-- The entry an access uses (R127). -/
theorem entryFor_spec (t : Four RowEntry) (h : rowsWf t = true) (bank : Nat) :
    (t.get (entryFor t bank)).bank = some bank ∨
      ((∀ j, (t.get j).bank ≠ some bank) ∧
        (((t.get (entryFor t bank)).row = none ∧ ∀ j, j < entryFor t bank → (t.get j).row ≠ none) ∨
          ((∀ j, (t.get j).row ≠ none) ∧ (t.get (entryFor t bank)).rank = 4))) := by
  unfold entryFor
  split
  next i hi => exact .inl (by simpa using (findEntry_some hi).1)
  next hn =>
    refine .inr ⟨fun j => by simpa using findEntry_none hn j, ?_⟩
    split
    next i hi =>
      obtain ⟨hc, hl⟩ := findEntry_some hi
      exact .inl ⟨by simpa using hc, fun j hj => by simpa [Option.isSome_iff_ne_none] using hl j hj⟩
    next hr =>
      refine .inr ⟨fun j => by simpa [Option.isSome_iff_ne_none] using findEntry_none hr j, ?_⟩
      cases h4 : findEntry t (fun e => e.rank == 4) with
      | some i => simpa using (findEntry_some h4).1
      | none =>
        obtain ⟨i, hi⟩ := ((rowsWf_iff t).mp h).2 4 (by omega) (by omega)
        exact absurd hi (by simpa using findEntry_none h4 i)

/-- One access is looked up as R127 says. -/
theorem touchRow_lookedUp (t : Four RowEntry) (h : rowsWf t = true) (bank row : Nat) : LookedUp t (touchRow t (bank, row)) bank row := by
  refine ⟨entryFor t bank, entryFor_spec t h bank, by simp [touchRow, useEntry], fun j hj => ?_⟩
  rw [touchRow, useEntry, Four.get_set_ne _ _ _ _ hj, Four.get_map]
  split <;> rfl

/-- An access keeps the table in order: the rank below the one moved comes from the entry one lower, and the bank of the entry used is
held by no other. -/
theorem rowsWf_of_lookedUp {t u : Four RowEntry} {bank row : Nat} (h : rowsWf t = true) (hl : LookedUp t u bank row) :
    rowsWf u = true := by
  obtain ⟨banks, ranks⟩ := (rowsWf_iff t).mp h
  obtain ⟨i, hi, hu, others⟩ := hl
  have only (j : Fin 4) (hj : j ≠ i) : (u.get j).bank ≠ some bank := by
    rw [others j hj]
    rcases hi with hb | ⟨hb, -⟩
    · exact fun hc => hj (banks j i bank hc hb)
    · exact hb j
  refine (rowsWf_iff u).mpr ⟨fun j k b hj hk => ?_, fun r lo hi => ?_⟩
  · by_cases hji : j = i <;> by_cases hki : k = i
    · rw [hji, hki]
    · subst hji
      rw [hu] at hj
      exact absurd (hk.trans hj.symm) (only k hki)
    · subst hki
      rw [hu] at hk
      exact absurd (hj.trans hk.symm) (only j hji)
    · rw [others j hji] at hj
      rw [others k hki] at hk
      exact banks j k b hj hk
  · by_cases h1 : r = 1
    · exact ⟨i, by rw [hu, h1]⟩
    · by_cases hr : r ≤ (t.get i).rank
      · obtain ⟨j, hj⟩ := ranks (r - 1) (by omega) (by omega)
        have hji : j ≠ i := fun e => by subst e; omega
        exact ⟨j, by rw [others j hji]; simp [hj, show r - 1 < (t.get i).rank by omega]; omega⟩
      · obtain ⟨j, hj⟩ := ranks r lo hi
        have hji : j ≠ i := fun e => by subst e; omega
        exact ⟨j, by rw [others j hji]; simp [hj, show ¬ r < (t.get i).rank by omega]⟩

theorem rowsWf_touchRows (as : List (Nat × Nat)) (t : Four RowEntry) (h : rowsWf t = true) : rowsWf (touchRows t as) = true := by
  induction as generalizing t with
  | nil => exact h
  | cons a as ih => exact ih _ (rowsWf_of_lookedUp h (touchRow_lookedUp t h a.1 a.2))

/-! ### The operations that write the table -/

theorem State.beginEntry_rows (s : State) : s.beginEntry.dram.rows = s.dram.rows ∨ s.beginEntry.dram.rows = closedRows s.prof.banks := by
  unfold State.beginEntry
  split
  · exact .inr (by simp)
  · exact .inl rfl

theorem rowsWf_beginEntry (s : State) (h : rowsWf s.dram.rows = true) : rowsWf s.beginEntry.dram.rows = true := by
  rcases State.beginEntry_rows s with e | e <;> simp [e, h, rowsWf_closedRows]

theorem rowsWf_endGrant (s : State) (h : rowsWf s.dram.rows = true) : rowsWf s.endGrant.dram.rows = true :=
  rowsWf_beginEntry { s with dram.grant := none } h

theorem rowsWf_requestEntry (why : EntryWhy) (s : State) (h : rowsWf s.dram.rows = true) :
    rowsWf (s.requestEntry why).dram.rows = true := rowsWf_beginEntry { s with dram.entryReq := some why } h

theorem rowsWf_beginGrant (g : Grant) (s : State) (h : rowsWf s.dram.rows = true) : rowsWf (s.beginGrant g).dram.rows = true := by
  cases g <;> exact rowsWf_touchRows _ _ h

/-! ### The end of a grant: what is left of the DRAM Controller -/

@[simp] theorem State.ackEnd_dram (p : Port) (q : DramReq) (s : State) : (s.ackEnd p q).dram = (s.carryOut q).endGrant.dram := by
  simp [State.ackEnd]

@[simp] theorem State.plainEnd_dram (p : Port) (q : DramReq) (s : State) : (s.plainEnd p q).dram = (s.carryOut q).endGrant.dram := by
  simp [State.plainEnd]

@[simp] theorem State.storeEnd_dram (p : Port) (i : SlotId) (q : DramReq) (s : State) :
    (s.storeEnd p i q).dram = (s.carryOut q).endGrant.dram := by
  unfold State.storeEnd
  dsimp only
  split <;> simp

/-- The end of a port's grant carries its request out and ends the grant, or does nothing. -/
theorem State.portGrantEnd_dram (p : Port) (s : State) :
    (s.portGrantEnd p).dram = s.dram ∨ ∃ q, (s.portGrantEnd p).dram = (s.carryOut q).endGrant.dram := by
  unfold State.portGrantEnd
  split
  next q _ => exact .inr ⟨q, by simp⟩
  next q _ => exact .inr ⟨q, by simp⟩
  next i q _ => exact .inr ⟨q, by simp⟩
  next => exact .inl rfl

theorem rowsWf_carried (q : DramReq) (s : State) (h : rowsWf s.dram.rows = true) :
    rowsWf (s.carryOut q).endGrant.dram.rows = true := rowsWf_endGrant _ (by simpa using h)

theorem rowsWf_portGrantEnd (p : Port) (s : State) (h : rowsWf s.dram.rows = true) :
    rowsWf (s.portGrantEnd p).dram.rows = true := by
  rcases State.portGrantEnd_dram p s with e | ⟨q, e⟩ <;> rw [e]
  · exact h
  · exact rowsWf_carried q s h

theorem rowsWf_fillNext (p : Port) (i : SlotId) (k : Nat) (q : DramReq) (s : State) (h : rowsWf s.dram.rows = true) :
    rowsWf (s.fillNext p i k q).dram.rows = true := by
  simpa [State.fillNext] using rowsWf_carried q s h

theorem rowsWf_mirrorNext (w : MirrorWrite) (q : DramReq) (s : State) (h : rowsWf s.dram.rows = true) :
    rowsWf (s.mirrorNext w q).dram.rows = true := by
  simpa [State.mirrorNext] using rowsWf_carried q s h

theorem rowsWf_burnReadNext (b : Burn) (q : DramReq) (s : State) (h : rowsWf s.dram.rows = true) :
    rowsWf (s.burnReadNext b q).dram.rows = true := by
  unfold State.burnReadNext
  dsimp only
  (repeat' split) <;> simp [h, rowsWf_carried]

/-! ### Resets, profiles, sleep: the rows are closed -/

theorem rowsWf_restart (s : State) : rowsWf s.restart.dram.rows = true := by
  have h : rowsWf s.captureHeld.cutOffAll.restartDram.rows = true := by
    unfold State.restartDram
    split <;> exact rowsWf_closedRows _
  exact h

theorem rowsWf_powerReset (x : Supply) (s : State) : rowsWf (s.powerReset x).dram.rows = true := rowsWf_closedRows _

theorem rowsWf_filled (s : State) : rowsWf s.filled.dram.rows = true := rowsWf_closedRows _

theorem rowsWf_sleepDram (s : State) : rowsWf s.sleepDram.dram.rows = true := rowsWf_closedRows _

theorem rowsWf_loadProfile (s : State) : rowsWf s.loadProfile.dram.rows = true := by
  unfold State.loadProfile
  split <;> exact rowsWf_closedRows _

/-- Every command keeps the open-row table in order. -/
theorem exec_rowsWf (c : Instr) (s t : State) (h : exec c s = .next t) (hr : rowsWf s.dram.rows = true) :
    rowsWf t.dram.rows = true := by
  have taken (f : Burn → State → State) (u : State) (hf : ∀ b v, (f b v).dram.rows = v.dram.rows) :
      (u.burnTakes f).dram.rows = u.dram.rows := State.burnTakes_keeps (·.dram.rows) f u (by simp) (fun b => hf b u)
  cases c
  case portRequestArrival | programEnd | eraseEnd | arbiterChoice =>
    simp only [exec, execPortRequestArrival, execProgramEnd, execEraseEnd, execArbiterChoice] at h
    (repeat' split at h) <;> cases h <;> simp [taken, hr, rowsWf_beginGrant]
  all_goals
    cases h
    try dsimp only
    try (repeat' split) <;> try simp [taken, hr, rowsWf_endGrant, rowsWf_beginEntry, rowsWf_requestEntry, State.beginUrgent_eq,
      rowsWf_closedRows, rowsWf_restart, rowsWf_powerReset, rowsWf_filled, rowsWf_sleepDram, rowsWf_loadProfile,
      rowsWf_portGrantEnd, rowsWf_fillNext, rowsWf_mirrorNext, rowsWf_burnReadNext]

/-- Settles O8: a millisecond leaves the table, and every command keeps it in order. -/
theorem stepKeepsOpenRowTable : Obligations.StepKeepsOpenRowTable := by
  unfold Obligations.StepKeepsOpenRowTable
  intro s t hr h
  exact step_induct (P := fun u => rowsWf u.dram.rows = true) h hr (fun _ => id) (by simp) (fun c u hu he => exec_rowsWf c u t he hu)

end Sys2Proof.Machine

namespace Sys2Proof.Machine
open Sys2Proof Sys2Proof.Machine Sys2Proof.Machine.Claims

/-! ## The two memories (log 20) -/

theorem State.memoryWf_iff (s : State) :
    s.memoryWf = true ↔ cellsWf dramDefault s.dram.cells = true ∧ cellsWf erasedWord s.flash.cells = true := by
  simp [State.memoryWf]

/-! ### DRAM -/

@[simp] theorem State.carryOut_cells (q : DramReq) (s : State) : (s.carryOut q).dram.cells = cellsAfter s.dram.cells q := by
  simp [State.carryOut]

theorem State.burnReadNext_cells (b : Burn) (q : DramReq) (s : State) :
    (s.burnReadNext b q).dram.cells = s.dram.cells ∨ (s.burnReadNext b q).dram.cells = cellsAfter s.dram.cells q := by
  unfold State.burnReadNext
  dsimp only
  (repeat' split) <;> simp

theorem dramWf_burnReadNext (b : Burn) (q : DramReq) (s : State) (h : cellsWf dramDefault s.dram.cells = true) :
    cellsWf dramDefault (s.burnReadNext b q).dram.cells = true := by
  rcases State.burnReadNext_cells b q s with e | e <;> rw [e]
  · exact h
  · exact cellsAfter_wf _ _ h

theorem dramWf_portGrantEnd (p : Port) (s : State) (h : cellsWf dramDefault s.dram.cells = true) :
    cellsWf dramDefault (s.portGrantEnd p).dram.cells = true := by
  rcases State.portGrantEnd_dram p s with e | ⟨q, e⟩ <;> rw [e]
  · exact h
  · exact by simpa using cellsAfter_wf _ q h

theorem dramWf_fillNext (p : Port) (i : SlotId) (k : Nat) (q : DramReq) (s : State) (h : cellsWf dramDefault s.dram.cells = true) :
    cellsWf dramDefault (s.fillNext p i k q).dram.cells = true := by
  simpa [State.fillNext] using cellsAfter_wf _ q h

theorem dramWf_mirrorNext (w : MirrorWrite) (q : DramReq) (s : State) (h : cellsWf dramDefault s.dram.cells = true) :
    cellsWf dramDefault (s.mirrorNext w q).dram.cells = true := by
  simpa [State.mirrorNext] using cellsAfter_wf _ q h

theorem dramWf_restart (s : State) (h : cellsWf dramDefault s.dram.cells = true) :
    cellsWf dramDefault s.restart.dram.cells = true := by
  have carried (d : Dram) (hd : cellsWf dramDefault d.cells = true) : cellsWf dramDefault d.grantCarried = true := by
    unfold Dram.grantCarried
    split
    · exact cellsAfter_wf _ _ hd
    · exact writeBackCells_wf _ _ hd
    · exact hd
  have hr : cellsWf dramDefault s.captureHeld.cutOffAll.restartDram.cells = true := by
    unfold State.restartDram
    split <;> exact carried _ (by simpa using h)
  exact hr

theorem dramWf_powerReset (s : State) (x : Supply) : cellsWf dramDefault (s.powerReset x).dram.cells = true := rfl

theorem dramWf_filled (s : State) : cellsWf dramDefault s.filled.dram.cells = true := rfl

/-- Every command keeps the DRAM words in canonical form. -/
theorem exec_dramWf {c : Instr} {s t : State} (h : exec c s = .next t) (hd : cellsWf dramDefault s.dram.cells = true) :
    cellsWf dramDefault t.dram.cells = true := by
  have taken (f : Burn → State → State) (u : State) (hf : ∀ b v, (f b v).dram.cells = v.dram.cells) :
      (u.burnTakes f).dram.cells = u.dram.cells := State.burnTakes_keeps (·.dram.cells) f u (by simp) (fun b => hf b u)
  cases c
  case portRequestArrival | programEnd | eraseEnd | arbiterChoice =>
    simp only [exec, execPortRequestArrival, execProgramEnd, execEraseEnd, execArbiterChoice] at h
    (repeat' split at h) <;> cases h <;> simp [taken, hd, applyUpsets_wf]
  all_goals
    cases h
    try dsimp only
    try (repeat' split) <;> try simp [taken, hd, State.beginUrgent_eq, cellsAfter_wf, writeBackCells_wf, dramWf_burnReadNext,
      dramWf_portGrantEnd, dramWf_fillNext, dramWf_mirrorNext, dramWf_restart, dramWf_powerReset, dramWf_filled]

/-! ### Flash -/

theorem flashWf_cutOff (j : Job) (s : State) (h : cellsWf erasedWord s.flash.cells = true) :
    cellsWf erasedWord (s.cutOff j).flash.cells = true := by
  cases j <;> first | exact tearWords_wf _ _ _ _ h | exact partEraseBlock_wf _ _ _ h | exact h

theorem flashWf_cutOffAll (s : State) (h : cellsWf erasedWord s.flash.cells = true) :
    cellsWf erasedWord s.cutOffAll.flash.cells = true := by
  unfold State.cutOffAll
  dsimp only
  (repeat' split) <;> simp only [flashWf_cutOff, h]

theorem flashWf_restart (s : State) (h : cellsWf erasedWord s.flash.cells = true) :
    cellsWf erasedWord s.restart.flash.cells = true := flashWf_cutOffAll _ (by simpa using h)

theorem flashWf_powerReset (x : Supply) (s : State) (h : cellsWf erasedWord s.flash.cells = true) :
    cellsWf erasedWord (s.powerReset x).flash.cells = true := flashWf_cutOffAll _ h

theorem flashWf_programPage (block page : Nat) (words : List Word) (ds : List Defect) (s : State)
    (h : cellsWf erasedWord s.flash.cells = true) : cellsWf erasedWord (s.programPage block page words ds).flash.cells = true :=
  applyDefects_wf _ _ _ (programWords_wf _ _ _ h)

theorem flashWf_erasedBlock (block : Nat) (ds : List Defect) (s : State) (h : cellsWf erasedWord s.flash.cells = true) :
    cellsWf erasedWord (s.erasedBlock block ds).flash.cells = true := applyDefects_wf _ _ _ (eraseBlock_wf _ _ h)

/-- The job that times out is cut off; what follows touches no flash word. -/
theorem State.timedOut_cells (j : Job) (s : State) : (s.timedOut j).flash.cells = (s.cutOff j).flash.cells := by
  have taken (f : Burn → State → State) (u : State) (hf : ∀ b v, (f b v).flash.cells = v.flash.cells) :
      (u.burnTakes f).flash.cells = u.flash.cells := State.burnTakes_keeps (·.flash.cells) f u (by simp) (fun b => hf b u)
  cases j <;> simp [State.timedOut, taken]

/-- Every command keeps the flash words in canonical form. -/
theorem exec_flashWf {c : Instr} {s t : State} (h : exec c s = .next t) (hf : cellsWf erasedWord s.flash.cells = true) :
    cellsWf erasedWord t.flash.cells = true := by
  have taken (f : Burn → State → State) (u : State) (hf : ∀ b v, (f b v).flash.cells = v.flash.cells) :
      (u.burnTakes f).flash.cells = u.flash.cells := State.burnTakes_keeps (·.flash.cells) f u (by simp) (fun b => hf b u)
  cases c
  case portRequestArrival | programEnd | eraseEnd | arbiterChoice =>
    simp only [exec, execPortRequestArrival, execProgramEnd, execEraseEnd, execArbiterChoice] at h
    (repeat' split at h) <;> cases h <;> simp [taken, hf, flashWf_programPage, flashWf_erasedBlock]
  case jobStart =>
    cases h
    split
    next =>
      split
      next j f hj => simpa [Flash.takeNext_cells _ _ _ _ hj] using hf
      next => exact hf
    next => exact hf
  all_goals
    cases h
    try dsimp only
    try (repeat' split) <;> try simp [taken, hf, State.beginUrgent_eq, flashWf_cutOff, flashWf_restart, flashWf_powerReset,
      State.timedOut_cells, State.leaveErase, partEraseBlock_wf]

/-- Settles O6: the two memories, each kept by a millisecond and by every command. -/
theorem stepKeepsMemoryCanonical : Obligations.StepKeepsMemoryCanonical := by
  unfold Obligations.StepKeepsMemoryCanonical
  intro s t hm h
  refine step_induct (P := fun u => u.memoryWf = true) h hm (fun _ => id) (by simp [State.memoryWf]) (fun c u hu he => ?_)
  obtain ⟨hd, hf⟩ := u.memoryWf_iff.mp hu
  exact t.memoryWf_iff.mpr ⟨exec_dramWf he hd, exec_flashWf he hf⟩

end Sys2Proof.Machine

namespace Sys2Proof.Machine
open Sys2Proof Sys2Proof.Machine Sys2Proof.Machine.Claims

/-! ## The lock store (R99, R103) -/

theorem oneWay_refl (l : LockVals) : oneWay l l = true := by
  have imp (b : Bool) : (!b || b) = true := by cases b <;> rfl
  simp [oneWay, imp]

/-- The lock fields that a burn carries past step 2 are in range and only tighten the store (R88). -/
def BurnTightens (l : LockVals) (b : Burn) : Prop := ∀ n, b.newLock = some n → lockOk n = true ∧ oneWay l n = true

theorem State.lockWf_iff (s : State) :
    s.lockWf = true ↔ lockOk s.lock = true ∧ ∀ b, s.img.burn = some b → BurnTightens s.lock b := by
  unfold State.lockWf BurnTightens
  cases s.img.burn with
  | none => simp
  | some b => cases hl : b.newLock <;> simp [hl]

theorem State.lockWf_congr {s t : State} (hl : t.lock = s.lock) (hb : t.img.burn = s.img.burn) (h : s.lockWf = true) :
    t.lockWf = true := by
  simpa [State.lockWf, hl, hb] using h

theorem State.lockWf_of_noBurn {s t : State} (hl : t.lock = s.lock) (hb : t.img.burn = none) (h : s.lockWf = true) :
    t.lockWf = true := by
  refine t.lockWf_iff.mpr ⟨hl ▸ (s.lockWf_iff.mp h).1, fun b e => ?_⟩
  rw [hb] at e
  cases e

/-- A burn that carries the same lock fields in its place keeps the store in order. -/
theorem State.lockWf_of_burn {s t : State} {b x : Burn} (hl : t.lock = s.lock) (hb : t.img.burn = some x)
    (hx : x.newLock = b.newLock) (h : lockOk s.lock = true) (hn : BurnTightens s.lock b) : t.lockWf = true := by
  refine t.lockWf_iff.mpr ⟨hl ▸ h, fun y e => ?_⟩
  rw [hb] at e
  cases e
  intro n hy
  exact hl ▸ hn n (hx ▸ hy)

section Burns

variable {s : State} {b : Burn}

theorem burnEnd_lockWf (code : Nat) (sum : Sum16) (h : lockOk s.lock = true) : (s.burnEnd b code sum).lockWf = true :=
  (State.lockWf_iff _).mpr ⟨by simpa using h, by simp [State.burnEnd]⟩

theorem burnRequeue_lockWf (h : lockOk s.lock = true) : (s.burnRequeue b).lockWf = true :=
  (State.lockWf_iff _).mpr ⟨by simpa using h, by simp [State.burnRequeue]⟩

theorem awaitAborted_lockWf (h : lockOk s.lock = true) (hn : BurnTightens s.lock b) : (s.awaitAborted b).lockWf = true :=
  State.lockWf_of_burn rfl rfl rfl h hn

/-- A burn that offers a job or a read carries the same lock fields; a step with nothing to offer changes nothing. -/
theorem burnOffer_burn (b : Burn) (s : State) :
    (s.burnOffer b).img.burn = s.img.burn ∨ ∃ x, (s.burnOffer b).img.burn = some x ∧ x.newLock = b.newLock := by
  unfold State.burnOffer
  (repeat' split) <;>
    first | exact .inl rfl | exact .inr ⟨_, rfl, rfl⟩

theorem burnOffer_lockWf (hs : s.lockWf = true) (hn : BurnTightens s.lock b) : (s.burnOffer b).lockWf = true := by
  rcases burnOffer_burn b s with e | ⟨x, hx, e⟩
  · exact State.lockWf_congr (by simp) e hs
  · exact State.lockWf_of_burn (by simp) hx e (s.lockWf_iff.mp hs).1 hn

theorem burnNext_lockWf (hs : s.lockWf = true) (hn : BurnTightens s.lock b) : (s.burnNext b).lockWf = true := by
  unfold State.burnNext
  split
  · exact burnOffer_lockWf hs hn
  · exact State.lockWf_of_burn rfl rfl rfl (s.lockWf_iff.mp hs).1 hn

theorem resumeBurn_lockWf (hs : s.lockWf = true) : s.resumeBurn.lockWf = true := by
  unfold State.resumeBurn
  split
  next b hb =>
    split
    · exact burnOffer_lockWf hs ((s.lockWf_iff.mp hs).2 b hb)
    · exact hs
  next => exact hs

theorem lockOk_of_profileOk {p : Profile} (h : profileOk p = true) : lockOk p.lock = true := by
  cases hl : lockOk p.lock with
  | true => rfl
  | false => simp only [profileOk, hl, Bool.and_false, Bool.false_and, Bool.false_eq_true] at h

/-- A profile that a block holds has passed its checks (R181). -/
theorem parseProfile_ok {ws : List Word} {p : Profile} (h : parseProfile ws = some p) : profileOk p = true := by
  rw [parseProfile] at h
  cases hf : profileFields ws with
  | none =>
    simp only [hf, ite_self] at h
    cases h
  | some x =>
    simp only [hf, Option.ite_none_right_eq_some, Option.some.injEq] at h
    obtain ⟨-, ok, rfl⟩ := h
    exact ok

/-- Step 2 takes lock fields that are in range and only tighten the store, or ends the burn (R88). -/
theorem burnStep2_lockWf (words : List Word) (hs : s.lockWf = true) : (s.burnStep2 b words).lockWf = true := by
  have hl := (s.lockWf_iff.mp hs).1
  unfold State.burnStep2
  split
  next => exact burnEnd_lockWf _ _ hl
  next p hp =>
    split
    next ho =>
      refine burnNext_lockWf hs fun n e => ?_
      cases e
      exact ⟨lockOk_of_profileOk (parseProfile_ok hp), ho⟩
    next => exact burnEnd_lockWf _ _ hl

theorem burnRead_lockWf (words : List Word) (hs : s.lockWf = true) (hn : BurnTightens s.lock b) :
    (s.burnRead b words).lockWf = true := by
  unfold State.burnRead
  split
  · exact burnStep2_lockWf words hs
  · exact burnNext_lockWf hs hn

theorem burnBlanked_lockWf (blank : Bool) (hs : s.lockWf = true) (hn : BurnTightens s.lock b) :
    (s.burnBlanked b blank).lockWf = true := by
  have hl := (s.lockWf_iff.mp hs).1
  unfold State.burnBlanked
  split
  · exact burnNext_lockWf hs hn
  · split
    · exact burnEnd_lockWf _ _ hl
    · split
      · exact burnEnd_lockWf _ _ hl
      · exact burnNext_lockWf hs hn

theorem burnProgrammed_lockWf (hs : s.lockWf = true) (hn : BurnTightens s.lock b) : (s.burnProgrammed b).lockWf = true := by
  unfold State.burnProgrammed
  split
  · exact burnNext_lockWf hs hn
  · exact hs

/-- Step 7 gives the store the fields that passed step 2 (R92, R103). -/
theorem burnStep7_lock (hs : lockOk s.lock = true) (hn : BurnTightens s.lock b) :
    lockOk (s.burnStep7 b).lock = true ∧ oneWay s.lock (s.burnStep7 b).lock = true := by
  unfold State.burnStep7
  split
  · cases hb : b.newLock with
    | none => simpa [hb] using ⟨hs, oneWay_refl _⟩
    | some n => simpa [hb] using hn n hb
  · exact ⟨hs, oneWay_refl _⟩

theorem burnVerified_lock (matched : Bool) (sum : Sum16) (hs : s.lockWf = true) (hn : BurnTightens s.lock b) :
    (s.burnVerified b matched sum).lockWf = true ∧ oneWay s.lock (s.burnVerified b matched sum).lock = true := by
  have hl := (s.lockWf_iff.mp hs).1
  unfold State.burnVerified
  dsimp only
  split
  · split
    · exact ⟨burnNext_lockWf hs hn, by simp [oneWay_refl]⟩
    · split
      · exact ⟨burnEnd_lockWf _ _ hl, by simp [oneWay_refl]⟩
      · obtain ⟨h1, h2⟩ := burnStep7_lock hl hn
        exact ⟨burnEnd_lockWf _ _ h1, by simpa using h2⟩
  · exact ⟨hs, oneWay_refl _⟩

theorem fetched_lockWf (bad : Bool) (words : List Word) (hs : s.lockWf = true) (hn : BurnTightens s.lock b) :
    (s.fetched b bad words).lockWf = true := by
  have hl := (s.lockWf_iff.mp hs).1
  unfold State.fetched
  (repeat' split)
  · exact burnRequeue_lockWf hl
  · exact burnEnd_lockWf _ _ hl
  · exact State.lockWf_of_burn rfl rfl rfl hl hn
  · exact hs

theorem stopBurn_lockWf (hs : s.lockWf = true) : s.stopBurn.lockWf = true := by
  obtain ⟨hl, hb⟩ := s.lockWf_iff.mp hs
  unfold State.stopBurn
  (repeat' split) <;>
    first | exact hs | exact burnRequeue_lockWf hl | exact awaitAborted_lockWf hl (hb _ ‹_›)

theorem burnStep1_lockWf (hs : s.lockWf = true) (hn : BurnTightens s.lock b) : (s.burnStep1 b).lockWf = true := by
  unfold State.burnStep1
  split
  · exact burnEnd_lockWf _ _ (s.lockWf_iff.mp hs).1
  · exact burnNext_lockWf hs hn

end Burns

/-! ### Entries, resets, field release -/

theorem enterRun_lockWf {s : State} (hs : s.lockWf = true) : s.enterRun.lockWf = true := by
  have h := resumeBurn_lockWf (s := { s.setPower .run with quiet := { s.quiet with remaining := quietLoad s.prof } }) hs
  exact State.lockWf_congr (by simp [State.enterRun, State.setPower]) (by simp [State.enterRun, State.setPower]) h

theorem enterPfDrain_lockWf {s : State} (hs : s.lockWf = true) : s.enterPfDrain.lockWf = true := by
  have h : ∀ u : State, u.lock = s.lock → u.img = s.img → u.stopBurn.settle.lockWf = true := fun u hl hi =>
    State.lockWf_congr (by simp) (by simp) (stopBurn_lockWf (State.lockWf_congr hl (by rw [hi]) hs))
  exact h _ (by simp) (by simp)

theorem enterByLpreq_lockWf {s : State} (hs : s.lockWf = true) : s.enterByLpreq.lockWf = true := by
  unfold State.enterByLpreq
  split
  · exact State.lockWf_congr (by simp) (by simp) hs
  · exact enterRun_lockWf hs

/-- Every reset leaves the store and ends the burn. -/
theorem restart_lockWf {s : State} (hs : s.lockWf = true) : s.restart.lockWf = true := State.lockWf_of_noBurn (by simp) rfl hs

theorem powerReset_lockWf {s : State} (x : Supply) (hs : s.lockWf = true) : (s.powerReset x).lockWf = true :=
  State.lockWf_of_noBurn (by simp) rfl hs

theorem leaveDoze_lockWf {s : State} (hs : s.lockWf = true) : s.leaveDoze.lockWf = true := by
  unfold State.leaveDoze
  dsimp only
  (repeat' split)
  · exact enterPfDrain_lockWf (State.lockWf_congr (by simp) (by simp) hs)
  · exact State.lockWf_congr (by simp) (by simp) hs
  · exact enterRun_lockWf (State.lockWf_congr (by simp) (by simp) hs)

theorem leavePfHalt_lockWf {s : State} (hs : s.lockWf = true) : s.leavePfHalt.lockWf = true := by
  unfold State.leavePfHalt
  dsimp only
  split
  · exact enterPfDrain_lockWf hs
  · exact enterByLpreq_lockWf (State.lockWf_congr (by simp) (by simp) hs)

theorem openPhase_lockWf {s : State} (hs : s.lockWf = true) : s.openPhase.lockWf = true := by
  unfold State.openPhase State.leaveStarting
  dsimp only
  split
  · exact enterPfDrain_lockWf (State.lockWf_congr (by simp) (by simp) hs)
  · exact enterByLpreq_lockWf (State.lockWf_congr (by simp) (by simp) hs)

theorem recoverAfter_lockWf {s : State} (c : ClassId) (hs : s.lockWf = true) : (s.recoverAfter c).lockWf = true := by
  unfold State.recoverAfter
  dsimp only
  split
  · exact openPhase_lockWf hs
  · exact State.lockWf_congr (by simp) (by simp) hs

theorem recoverSlot_lockWf {s : State} (c : ClassId) (q : Seq) (accepted : Bool) (hs : s.lockWf = true) :
    (s.recoverSlot c q accepted).lockWf = true := by
  have hr : (s.recoverRecord c q).lockWf = true := State.lockWf_congr (by simp) (by simp) hs
  unfold State.recoverSlot
  dsimp only
  (repeat' split)
  · exact recoverAfter_lockWf c hr
  · exact State.lockWf_congr (by simp) (by simp) hr
  · exact recoverAfter_lockWf c hs

theorem endMount_lockWf {s : State} (hs : s.lockWf = true) : s.endMount.lockWf = true := by
  unfold State.endMount State.beginRecovery
  split
  · exact State.lockWf_congr (by simp) (by simp) hs
  · exact openPhase_lockWf (State.lockWf_congr (by simp) (by simp) hs)

theorem growRun_lockWf {s : State} (hs : s.lockWf = true) : s.growRun.lockWf = true := by
  unfold State.growRun
  dsimp only
  split
  · exact hs
  · exact endMount_lockWf hs

theorem mountPage_lockWf {s : State} (block page : Nat) (k : PageClass) (hs : s.lockWf = true) :
    (s.mountPage block page k).lockWf = true := by
  unfold State.mountPage State.mountPagesDone
  dsimp only
  (repeat' split)
  · exact hs
  · exact growRun_lockWf (State.lockWf_congr (by simp) (by simp) hs)
  · exact State.lockWf_congr (by simp) (by simp) hs

theorem mountRead_lockWf {s : State} (block page : Nat) (k : PageClass) (hs : s.lockWf = true) :
    (s.mountRead block page k).lockWf = true := by
  unfold State.mountRead
  split
  · exact State.lockWf_congr (by simp) (by simp) hs
  · exact mountPage_lockWf _ _ _ hs
  · exact hs

theorem mountChecked_lockWf {s : State} (blank : Bool) (hs : s.lockWf = true) : (s.mountChecked blank).lockWf = true := by
  unfold State.mountChecked
  split
  · exact growRun_lockWf (State.lockWf_congr (by simp) (by simp) hs)
  · split
    · exact growRun_lockWf (s := { s with com.ahead := s.com.ahead + 1, mir.dirty := true }) hs
    · exact endMount_lockWf hs
  · exact hs

/-- Any lock fields in range tighten the store at manufacture (R99). -/
theorem oneWay_manufacture {n : LockVals} (h : lockOk n = true) : oneWay manufactureLock n = true := by
  simp only [lockOk, Bool.and_eq_true, decide_eq_true_eq] at h
  obtain ⟨⟨⟨h1, -⟩, h2⟩, -⟩ := h
  simp [oneWay, manufactureLock, h1, h2]

theorem grantRelease_lockWf {s : State} (hs : s.lockWf = true) : s.grantRelease.lockWf = true := by
  have hm : ({ s with lock := manufactureLock, mir.dirty := true } : State).lockWf = true := by
    refine (State.lockWf_iff _).mpr ⟨rfl, fun b hb n hn => ?_⟩
    obtain ⟨ok, -⟩ := (s.lockWf_iff.mp hs).2 b hb n hn
    exact ⟨ok, oneWay_manufacture ok⟩
  exact State.lockWf_congr (by simp [State.grantRelease]) (by simp [State.grantRelease]) hm

/-- The blank check of block 255 grants field release in the release phase (R105, R106); no other start-up check writes the store. -/
theorem startChecked_lock (block : Nat) (blank : Bool) (s : State) : (s.startChecked block blank).lock = s.lock ∨
    s.su.phase = .release ∧ (s.startChecked block blank).lock = manufactureLock := by
  unfold State.startChecked State.releaseChecked State.grantRelease
  (repeat' split) <;> simp_all

theorem startChecked_lockWf (block : Nat) (blank : Bool) {s : State} (hs : s.lockWf = true) :
    (s.startChecked block blank).lockWf = true := by
  unfold State.startChecked
  split
  · unfold State.releaseChecked
    split
    · exact State.lockWf_congr (by simp) (by simp) hs
    · split
      · exact hs
      · exact grantRelease_lockWf hs
  · exact mountChecked_lockWf blank hs
  · exact hs

/-- Every command leaves the lock store alone but for a burn's VERIFY and a BLANK-CHECK. -/
theorem exec_lock {c : Instr} {s t : State} (h : exec c s = .next t) (hv : c ≠ .verifyEnd) (hb : c ≠ .blankCheckEnd) :
    t.lock = s.lock := by
  have taken (f : Burn → State → State) (u : State) (hf : ∀ b v, (f b v).lock = v.lock) :
      (u.burnTakes f).lock = u.lock := State.burnTakes_keeps State.lock f u (by simp) (fun b => hf b u)
  cases c
  case portRequestArrival | programEnd | eraseEnd | arbiterChoice =>
    simp only [exec, execPortRequestArrival, execProgramEnd, execEraseEnd, execArbiterChoice] at h
    (repeat' split at h) <;> cases h <;> simp [taken]
  case verifyEnd => exact absurd rfl hv
  case blankCheckEnd => exact absurd rfl hb
  all_goals
    cases h
    try dsimp only
    try (repeat' split) <;> try simp [taken, State.beginUrgent_eq]

/-- What a burn's job brings back keeps the lock side in order, where the step it goes to does. -/
theorem burnTakes_lockWf {f : Burn → State → State} {s : State} (hs : s.lockWf = true)
    (hf : ∀ b, BurnTightens s.lock b → (f b s).lockWf = true) : (s.burnTakes f).lockWf = true :=
  State.burnTakes_ind (P := fun u => u.lockWf = true) hs (fun _ => burnRequeue_lockWf (s.lockWf_iff.mp hs).1) (fun b hb => hf b ((s.lockWf_iff.mp hs).2 b hb))

theorem timedOut_lockWf (j : Job) {s : State} (hs : s.lockWf = true) : (s.timedOut j).lockWf = true := by
  have h : (s.cutOff j).finishJob.lockWf = true := State.lockWf_congr (by simp) (by simp) hs
  unfold State.timedOut
  dsimp only
  split
  · exact State.lockWf_congr (by simp) (by simp) h
  · exact State.lockWf_congr (by simp) (by simp) h
  · exact burnTakes_lockWf h (fun b _ => burnEnd_lockWf _ _ (State.lockWf_iff _ |>.mp h).1)

theorem burnReadNext_lockWf {b : Burn} (q : DramReq) {s : State} (hs : s.lockWf = true) (hn : BurnTightens s.lock b) :
    (s.burnReadNext b q).lockWf = true := by
  have hl := (s.lockWf_iff.mp hs).1
  unfold State.burnReadNext
  dsimp only
  split
  · split
    · exact hs
    · exact State.lockWf_of_burn (s := s) (b := b) (by simp) rfl rfl hl hn
  · split
    · exact hs
    · exact State.lockWf_of_burn (s := s) (b := b) (by simp) rfl rfl hl hn
  · exact State.lockWf_congr (by simp) (by simp) hs

/-- The burn that a grant of the BURN requester is for is the burn in progress. -/
theorem State.burnInGrant_some {s : State} {b : Burn} (h : s.burnInGrant = some b) : s.img.burn = some b := by
  unfold State.burnInGrant at h
  split at h
  · exact h
  · exact absurd h (by simp)

/-- Every command keeps the lock store and the fields that a burn carries in order. -/
theorem exec_lockWf {c : Instr} {s t : State} (h : exec c s = .next t) (hs : s.lockWf = true) : t.lockWf = true := by
  obtain ⟨hl, hb⟩ := s.lockWf_iff.mp hs
  have same {u : State} (h1 : u.lock = s.lock) (h2 : u.img.burn = s.img.burn) : u.lockWf = true := State.lockWf_congr h1 h2 hs
  cases c
  case portRequestArrival | arbiterChoice =>
    simp only [exec, execPortRequestArrival, execArbiterChoice] at h
    (repeat' split at h) <;> cases h <;> exact same (by simp) (by simp)
  case programEnd ds =>
    simp only [exec, execProgramEnd] at h
    (repeat' split at h) <;> cases h
    · exact same (by simp) (by simp)
    · exact burnTakes_lockWf (same (by simp) (by simp)) (fun b hn => burnProgrammed_lockWf (same (by simp) (by simp)) hn)
    · exact hs
  case eraseEnd ds =>
    simp only [exec, execEraseEnd] at h
    (repeat' split at h) <;> cases h
    · exact same (by simp) (by simp)
    · exact burnTakes_lockWf (same (by simp) (by simp)) (fun b hn => burnNext_lockWf (same (by simp) (by simp)) hn)
    · exact hs
  case powerOn => cases h; exact powerReset_lockWf _ hs
  case powerLoss => cases h; exact powerReset_lockWf _ hs
  case restartAsserted =>
    cases h
    split
    · exact restart_lockWf hs
    · exact hs
  case recoveryReadComplete =>
    cases h
    split
    · exact recoverSlot_lockWf _ _ _ (same (by simp) (by simp))
    · exact hs
  case readJobEnd =>
    cases h
    split
    · exact same (by simp) (by simp)
    · exact same (by simp) (by simp)
    · exact same (by simp) (by simp)
    · exact mountRead_lockWf _ _ _ (same (by simp) (by simp))
    · exact hs
  case blankCheckEnd =>
    cases h
    split
    · split <;> exact same (by simp) (by simp)
    · exact burnTakes_lockWf (same (by simp) (by simp)) (fun b hn => burnBlanked_lockWf _ (same (by simp) (by simp)) hn)
    · exact startChecked_lockWf _ _ (same (by simp) (by simp))
    · exact hs
  case verifyEnd =>
    cases h
    split
    · exact same (by simp) (by simp)
    · exact burnTakes_lockWf (same (by simp) (by simp)) (fun b hn => (burnVerified_lock _ _ (same (by simp) (by simp)) hn).1)
    · exact hs
  case flashTimeout =>
    cases h
    split
    · split
      · exact timedOut_lockWf _ (same (by simp) (by simp))
      · exact hs
    · exact hs
  case eraseAbortEnd =>
    cases h
    split
    · dsimp only
      split
      · exact burnTakes_lockWf (same (by simp) (by simp)) (fun _ _ => same (by simp) (by simp))
      · exact same (by simp) (by simp)
    · exact hs
  case burnStart =>
    cases h
    (repeat' split) <;> try exact hs
    have none_new {i : SlotId} {n : Nat} : BurnTightens s.lock (newBurn i n) := fun _ e => by cases e
    exact burnStep1_lockWf (State.lockWf_of_burn rfl rfl rfl hl none_new) none_new
  case burnShadowReadComplete =>
    cases h
    split
    next q b _ hg =>
      have hn := hb b (State.burnInGrant_some hg)
      split
      · dsimp only
        split
        · exact burnEnd_lockWf _ _ (by simpa using hl)
        · split
          · exact burnRead_lockWf _ (same (by simp) (by simp)) (by simpa using hn)
          · exact hs
      · exact hs
    next => exact hs
  case sourceFetchComplete =>
    cases h
    split
    next q b _ hg =>
      have hn := hb b (State.burnInGrant_some hg)
      split
      · dsimp only
        split
        · exact fetched_lockWf _ _ (same (by simp) (by simp)) (by simpa using hn)
        · exact hs
      · exact hs
    next => exact hs
  case partRequestGrantEnd =>
    cases h
    split
    · split
      next b hg => exact burnReadNext_lockWf _ hs (hb b (State.burnInGrant_some hg))
      next => exact same (by simp) (by simp)
    · (repeat' split) <;> exact same (by simp) (by simp)
    · (repeat' split) <;> exact same (by simp) (by simp)
  case selfRefreshExit =>
    cases h
    have hw : (s.pass (1 - s.dram.residency)).wakeDram.lockWf = true := same (by simp) (by simp)
    split
    · dsimp only
      split
      · exact hw
      · exact leaveDoze_lockWf hw
      · exact leavePfHalt_lockWf hw
      · exact hw
    · exact hs
  case lpreqReleased =>
    cases h
    split
    · dsimp only
      split
      · split
        · exact hs
        · exact enterRun_lockWf (same (by simp) (by simp))
      · exact same (by simp) (by simp)
    · exact hs
  case pfwAsserted =>
    cases h
    split
    · exact hs
    · dsimp only
      split
      · split
        · exact hs
        · exact enterPfDrain_lockWf (same (by simp) (by simp))
      · exact same (by simp) (by simp)
  case pfwReleased =>
    cases h
    split
    · dsimp only
      split
      · split
        · exact hs
        · exact enterByLpreq_lockWf (same (by simp) (by simp))
      · exact hs
      · exact hs
    · exact hs
  all_goals
    cases h
    try dsimp only
    try (repeat' split)
  all_goals exact same (by simp [State.beginUrgent_eq]) (by simp [State.beginUrgent_eq])

/-- The two commands that write the lock store: a VERIFY tightens it, a BLANK-CHECK may grant field release. -/
theorem exec_lock_written {c : Instr} {s t : State} (h : exec c s = .next t) (hs : s.lockWf = true) :
    oneWay s.lock t.lock = true ∨ c = .blankCheckEnd ∧ s.su.phase = .release ∧ t.lock = manufactureLock := by
  by_cases hv : c = .verifyEnd
  · subst hv
    left
    cases h
    split
    · simp [oneWay_refl]
    · refine State.burnTakes_ind (P := fun u => oneWay s.lock u.lock = true) (by simp [oneWay_refl]) (by simp [oneWay_refl]) ?_
      intro b hb
      have hj : s.finishJob.lockWf = true := State.lockWf_congr (by simp) (by simp) hs
      simpa using (burnVerified_lock _ _ hj ((State.lockWf_iff _).mp hj |>.2 b hb)).2
    · exact oneWay_refl _
  · by_cases hb : c = .blankCheckEnd
    · subst hb
      cases h
      split
      · left
        split <;> simp [oneWay_refl]
      · exact .inl (State.burnTakes_ind (P := fun u => oneWay s.lock u.lock = true) (by simp [oneWay_refl])
          (by simp [oneWay_refl]) (by simp [oneWay_refl]))
      next b _ =>
        rcases startChecked_lock b (blockBlank s.flash.cells b) s.finishJob with e | ⟨hp, e⟩
        · exact .inl (by simp [e, oneWay_refl])
        · exact .inr ⟨rfl, by simpa using hp, e⟩
      · exact .inl (oneWay_refl _)
    · exact .inl (by rw [exec_lock h hv hb]; exact oneWay_refl _)

/-- Settles O9: a millisecond leaves the store, and every command keeps it in order and tightens it, but for the check that grants
field release. -/
theorem lockStoreOnlyTightens : Obligations.LockStoreOnlyTightens := by
  unfold Obligations.LockStoreOnlyTightens
  intro s t hs h
  rcases step_cases h with ⟨-, rfl⟩ | ⟨c, rest, hp, he⟩
  · exact ⟨State.lockWf_congr (by simp) (by simp) hs, .inl (by simp [oneWay_refl])⟩
  · refine ⟨exec_lockWf he hs, (exec_lock_written he hs).imp_right fun ⟨hc, hph, hl⟩ => ⟨?_, hph, hl⟩⟩
    rw [hp, hc]
    rfl

end Sys2Proof.Machine

namespace Sys2Proof.Machine
open Sys2Proof Sys2Proof.Machine Sys2Proof.Machine.Claims

/-! ## The outbox and the LOST count (R31 to R36)

Every operation moves the outbox and the LOST count by the few moves of 2.7; what those moves keep, every command keeps. -/

/-- A property of outbox and LOST count that the moves of 2.7 keep. -/
structure OutboxClosed (P : List Record → Nat → Prop) : Prop where
  offer : ∀ o l r, P o l → o.length < 8 → P (o ++ [r]) l
  lose : ∀ o l, P o l → 8 ≤ o.length → P o (saturate 65535 l 1)
  merge : ∀ o l, P o l → P (mergeLoss o) l
  depart : ∀ o l r r', P (r :: o) l → P (if 0 < l then o ++ [r'] else o) 0
  front : ∀ o l r, P o l → o.length < 8 → P (r :: o) l
  frontLose : ∀ o l r, P o l → 8 ≤ o.length → P (r :: o.take 7) (saturate 65535 l 1)
  empty : P [] 0

/-- The property of a state's outbox and LOST count. -/
def State.boxed (P : List Record → Nat → Prop) (s : State) : Prop := P s.stg.outbox s.stg.lost

section Outbox

variable {P : List Record → Nat → Prop} {s t : State}

theorem State.boxed_congr (h : s.boxed P) (ho : t.stg.outbox = s.stg.outbox) (hl : t.stg.lost = s.stg.lost) : t.boxed P := by
  simpa [State.boxed, ho, hl] using h

theorem State.boxed_stg (h : s.boxed P) (ht : t.stg = s.stg) : t.boxed P :=
  State.boxed_congr h (by rw [ht]) (by rw [ht])

variable (hP : OutboxClosed P)
include hP

theorem boxed_offer (r : Record) (h : s.boxed P) : (s.offer r).boxed P := by
  by_cases hl : s.stg.outbox.length < 8
  · rw [State.offer_room r s hl]
    exact hP.offer _ _ r h hl
  · rw [State.offer_full r s (Nat.le_of_not_lt hl)]
    exact hP.lose _ _ h (Nat.le_of_not_lt hl)

theorem boxed_offerNow (kind : Byte) (urgent : Bool) (payload : List Word) (h : s.boxed P) :
    (s.offerNow kind urgent payload).boxed P := boxed_offer hP _ h

theorem boxed_offerRefreshLost (h : s.boxed P) : s.offerRefreshLost.boxed P := by
  unfold State.offerRefreshLost
  split
  · exact hP.merge _ _ h
  · exact boxed_offerNow hP _ _ _ h

theorem boxed_offerFront (r : Record) (h : s.boxed P) : (s.offerFront r).boxed P := by
  unfold State.offerFront
  split
  next hl => exact hP.front _ _ r h hl
  next hl => exact hP.frontLose _ _ r h (Nat.le_of_not_lt hl)

theorem boxed_faultRecord (requester : Nat) (rs : List (Nat × EccResult)) (h : s.boxed P) : (s.faultRecord requester rs).boxed P := by
  unfold State.faultRecord
  split
  · exact boxed_offerNow hP _ _ _ h
  · exact h

theorem boxed_depart (r : Record) (rest : List Record) (h : s.boxed P) (ho : s.stg.outbox = r :: rest) : (s.depart r rest).boxed P := by
  have hd := hP.depart rest s.stg.lost r (partRecord 0xFA#8 false s.stamp [numWord s.stg.lost]) (ho ▸ h)
  by_cases hl : 0 < s.stg.lost
  · rw [if_pos hl] at hd
    simpa [State.boxed, State.depart, State.lostRecord, State.reserve, State.stamp, hl] using hd
  · rw [if_neg hl] at hd
    simpa [State.boxed, State.depart, State.lostRecord, State.reserve, show s.stg.lost = 0 by omega] using hd

theorem boxed_abandon (p : Port) (c : ClassId) (cause : Nat) (h : s.boxed P) : (s.abandon p c cause).boxed P := by
  unfold State.abandon
  split
  · exact h
  · exact boxed_offerNow hP _ _ _ h

theorem boxed_abandonPort (p : Port) (cause : Nat) (h : s.boxed P) : (s.abandonPort p cause).boxed P :=
  boxed_abandon hP p 3 cause (boxed_abandon hP p 2 cause (boxed_abandon hP p 1 cause (boxed_abandon hP p 0 cause h)))

omit hP in
theorem boxed_complete (p : Port) (c : ClassId) (kind : Byte) (urgent : Bool) (payload : List Word) (h : s.boxed P) :
    (s.complete p c kind urgent payload).boxed P := by
  rw [State.complete_eq]
  exact h

theorem boxed_openRecord (p : Port) (c : ClassId) (whole : Bool) (w : Word) (h : s.boxed P) :
    (s.openRecord p c whole w).2.boxed P := by
  have ha := boxed_abandon hP p c causeReopen h
  unfold State.openRecord
  dsimp only
  split
  · exact ha
  · split
    · exact ha
    · split
      · exact boxed_complete _ _ _ _ _ (s := (s.abandon p c causeReopen).reserve c) ha
      · exact ha

omit hP in
theorem boxed_putPayload (p : Port) (c : ClassId) (k : Nat) (whole : Bool) (w : Word) (h : s.boxed P) :
    (s.putPayload p c k whole w).2.boxed P := by
  unfold State.putPayload
  split
  · dsimp only
    split
    · exact boxed_complete _ _ _ _ _ h
    · exact h
  · exact h
  · exact h

theorem boxed_journalWord (p : Port) (c : ClassId) (k : Nat) (whole : Bool) (w : Word) (h : s.boxed P) :
    (s.journalWord p c k whole w).2.boxed P := by
  unfold State.journalWord
  split
  · exact boxed_openRecord hP p c whole w h
  · split
    · exact boxed_putPayload p c k whole w h
    · exact h

theorem boxed_journalWords (p : Port) (c : ClassId) (k : Nat) (ws : List Word) (h : s.boxed P) :
    (State.journalWords p c k ws s).2.boxed P := by
  induction ws generalizing k s with
  | nil => exact h
  | cons w ws ih =>
    have hw := boxed_journalWord hP p c k true w h
    unfold State.journalWords
    split
    next u e => exact ih _ (by simpa [e] using hw)
    next x u e => simpa [e] using hw

theorem boxed_noteStall (h : s.boxed P) : s.noteStall.boxed P := by
  unfold State.noteStall
  split
  · exact boxed_offerNow hP _ _ _ (s := ({ s with com.full := true } : State).mark) h
  · exact h

theorem boxed_settle (h : s.boxed P) : s.settle.boxed P := by
  unfold State.settle
  dsimp only
  split <;> exact boxed_noteStall hP h

theorem boxed_noteResume (h : s.boxed P) : s.noteResume.boxed P := by
  unfold State.noteResume
  split
  · exact boxed_offerNow hP _ _ _ (s := ({ s with com.full := false } : State).mark) h
  · exact h

theorem boxed_failPage (f : InFlight) (h : s.boxed P) : (s.failPage f).boxed P := by
  have h1 := boxed_offerNow hP 0xF9#8 false [numWord 1, numWord f.block, numWord f.page] h
  unfold State.failPage
  dsimp only
  split
  · exact boxed_offerNow hP 0xF9#8 false _ h1
  · exact h1

theorem boxed_upkeepFailed (block : Nat) (h : s.boxed P) : (s.upkeepFailed block).boxed P := by
  have h1 := boxed_offerNow hP 0xF9#8 false [numWord 3, numWord block, numWord 0] h
  unfold State.upkeepFailed
  dsimp only
  split <;> exact h1

theorem boxed_candidate (x : Candidate) (h : s.boxed P) : (s.candidate x).boxed P := by
  unfold State.candidate
  dsimp only
  split
  · exact boxed_settle hP h
  · exact h
  · exact h

theorem boxed_pageVerified (matched : Bool) (h : s.boxed P) : (s.pageVerified matched).boxed P := by
  unfold State.pageVerified
  split
  next f _ =>
    cases matched
    · exact boxed_settle hP (boxed_failPage hP f h)
    · exact boxed_settle hP (s := s.confirmPage f) h
  next => exact h

theorem boxed_pageTimedOut (h : s.boxed P) : s.pageTimedOut.boxed P := by
  unfold State.pageTimedOut
  dsimp only
  split
  · exact boxed_settle hP (boxed_failPage hP _ h)
  · exact h

theorem boxed_loseRefresh (h : s.boxed P) : s.loseRefresh.boxed P := boxed_offerRefreshLost hP h

/-! ### Burns -/

theorem boxed_burnResult (i : SlotId) (block code : Nat) (sum : Sum16) (h : s.boxed P) : (s.burnResult i block code sum).boxed P :=
  boxed_offerNow hP _ _ _ h

theorem boxed_burnEnd (b : Burn) (code : Nat) (sum : Sum16) (h : s.boxed P) : (s.burnEnd b code sum).boxed P :=
  boxed_burnResult hP _ _ _ _ (s := { s with img.burn := none }) h

theorem boxed_burnStep2 (b : Burn) (words : List Word) (h : s.boxed P) : (s.burnStep2 b words).boxed P := by
  unfold State.burnStep2
  split
  · exact boxed_burnEnd hP _ _ _ h
  · split
    · exact State.boxed_stg h (by simp)
    · exact boxed_burnEnd hP _ _ _ h

theorem boxed_burnRead (b : Burn) (words : List Word) (h : s.boxed P) : (s.burnRead b words).boxed P := by
  unfold State.burnRead
  split
  · exact boxed_burnStep2 hP b words h
  · exact State.boxed_stg h (by simp)

theorem boxed_burnBlanked (b : Burn) (blank : Bool) (h : s.boxed P) : (s.burnBlanked b blank).boxed P := by
  unfold State.burnBlanked
  split
  · exact State.boxed_stg h (by simp)
  · split
    · exact boxed_burnEnd hP _ _ _ h
    · split
      · exact boxed_burnEnd hP _ _ _ h
      · exact State.boxed_stg h (by simp)

theorem boxed_burnVerified (b : Burn) (matched : Bool) (sum : Sum16) (h : s.boxed P) : (s.burnVerified b matched sum).boxed P := by
  unfold State.burnVerified
  dsimp only
  split
  · split
    · exact State.boxed_stg h (by simp)
    · split
      · exact boxed_burnEnd hP _ _ _ h
      · exact boxed_burnEnd hP _ _ _ (State.boxed_stg h (by simp))
  · exact h

theorem boxed_burnStep1 (b : Burn) (h : s.boxed P) : (s.burnStep1 b).boxed P := by
  unfold State.burnStep1
  split
  · exact boxed_burnEnd hP _ _ _ h
  · exact State.boxed_stg h (by simp)

theorem boxed_fetched (b : Burn) (bad : Bool) (words : List Word) (h : s.boxed P) : (s.fetched b bad words).boxed P := by
  unfold State.fetched
  split
  · exact h
  · split
    · exact boxed_burnEnd hP _ _ _ h
    · split <;> exact h

omit hP in
theorem boxed_burnTakes {f : Burn → State → State} (h : s.boxed P) (hf : ∀ b, (f b s).boxed P) : (s.burnTakes f).boxed P :=
  State.burnTakes_ind (P := fun u => u.boxed P) h (fun _ => h) (fun b _ => hf b)

theorem boxed_timedOut (j : Job) (h : s.boxed P) : (s.timedOut j).boxed P := by
  have hc : (s.cutOff j).finishJob.boxed P := State.boxed_stg h (by simp)
  unfold State.timedOut
  dsimp only
  split
  · exact boxed_pageTimedOut hP hc
  · exact boxed_upkeepFailed hP _ hc
  · exact boxed_burnTakes hc (fun b => boxed_burnEnd hP b _ _ hc)

/-! ### Power states -/

theorem boxed_enterSettling (h : s.boxed P) : s.enterSettling.boxed P :=
  boxed_settle hP (boxed_abandonPort hP .svp causeSettle (s := s.latchPayload .svp) (State.boxed_stg h (by simp)))

theorem boxed_enterRoused (h : s.boxed P) : s.enterRoused.boxed P := boxed_settle hP h

theorem boxed_enterRun (h : s.boxed P) : s.enterRun.boxed P := boxed_settle hP (State.boxed_stg h (by simp))

theorem boxed_enterPfDrain (h : s.boxed P) : s.enterPfDrain.boxed P := by
  have h1 : ((s.latchPayload .svp).latchPayload .mnp).boxed P := State.boxed_stg h (by simp)
  have h2 := boxed_abandonPort hP .mnp causePfDrain (boxed_abandonPort hP .svp causePfDrain (boxed_offerNow hP 0xF6#8 true
    (((s.latchPayload .svp).latchPayload .mnp).stg.rings.toList.map (fun r => numWord r.staged)) h1))
  exact boxed_settle hP (State.boxed_stg h2 (by simp [State.offerPowerfail]))

theorem boxed_enterByLpreq (h : s.boxed P) : s.enterByLpreq.boxed P := by
  unfold State.enterByLpreq
  split
  · exact boxed_enterSettling hP h
  · exact boxed_enterRun hP h

theorem boxed_cancelEntry (cause : Nat) (h : s.boxed P) : (s.cancelEntry cause).boxed P := by
  unfold State.cancelEntry
  split
  · exact boxed_offerNow hP _ _ _ (s := { s with pow.entryPending := false }) h
  · exact h

theorem boxed_leaveDoze (h : s.boxed P) : s.leaveDoze.boxed P := by
  have h1 := boxed_offerNow hP 0xF5#8 true [numWord 2, numWord (s.pow.wakeCause.getD 0)]
    (s := { s with pow.coarse := false, pow.wakeTimer := none, pow.wakeCause := none }) h
  unfold State.leaveDoze
  dsimp only
  split
  · exact boxed_enterPfDrain hP h1
  · split
    · exact boxed_enterRoused hP h1
    · exact boxed_enterRun hP h1

theorem boxed_leavePfHalt (h : s.boxed P) : s.leavePfHalt.boxed P := by
  unfold State.leavePfHalt
  dsimp only
  split
  · exact boxed_enterPfDrain hP h
  · exact boxed_enterByLpreq hP h

/-! ### Captures, start-up -/

theorem boxed_consumeOne (h : s.boxed P) : s.consumeOne.boxed P := by
  unfold State.consumeOne
  split
  · split
    · split
      · exact boxed_offerNow hP _ _ _ (s := { s with con.slots := s.con.slots.set _ none }) h
      · exact h
    · exact h
  · exact h

theorem boxed_consumeAll (h : s.boxed P) : s.consumeAll.boxed P :=
  boxed_consumeOne hP (boxed_consumeOne hP (boxed_consumeOne hP (boxed_consumeOne hP h)))

theorem boxed_openPhase (h : s.boxed P) : s.openPhase.boxed P := by
  have h1 := boxed_consumeAll hP (s := (s.offerFront (partRecord 0xF0#8 true s.stamp s.startPayload)).raise .start)
    (boxed_offerFront hP _ h)
  unfold State.openPhase State.leaveStarting
  dsimp only
  split
  · exact boxed_enterPfDrain hP h1
  · exact boxed_enterByLpreq hP h1

theorem boxed_recoverAfter (c : ClassId) (h : s.boxed P) : (s.recoverAfter c).boxed P := by
  unfold State.recoverAfter
  dsimp only
  split
  · exact boxed_openPhase hP h
  · exact h

theorem boxed_recoverSlot (c : ClassId) (q : Seq) (accepted : Bool) (h : s.boxed P) : (s.recoverSlot c q accepted).boxed P := by
  have hr : (s.recoverRecord c q).boxed P := h
  unfold State.recoverSlot
  dsimp only
  split
  · split
    · exact boxed_recoverAfter hP c hr
    · exact hr
  · exact boxed_recoverAfter hP c h

theorem boxed_endMount (h : s.boxed P) : s.endMount.boxed P := by
  unfold State.endMount State.beginRecovery
  split
  · exact h
  · exact boxed_openPhase hP h

theorem boxed_growRun (h : s.boxed P) : s.growRun.boxed P := by
  unfold State.growRun
  dsimp only
  split
  · exact h
  · exact boxed_endMount hP h

omit hP in
theorem boxed_mountEmpty (h : s.boxed P) : s.mountEmpty.boxed P := h

theorem boxed_mountPage (block page : Nat) (k : PageClass) (h : s.boxed P) : (s.mountPage block page k).boxed P := by
  unfold State.mountPage State.mountPagesDone
  dsimp only
  split
  · exact h
  · split
    · exact boxed_growRun hP (State.boxed_congr h (by simp [State.mountClasses]) (by simp [State.mountClasses]))
    · exact boxed_mountEmpty h

omit hP in
theorem boxed_mountLead (block : Nat) (k : PageClass) (h : s.boxed P) : (s.mountLead block k).boxed P := by
  unfold State.mountLead State.mountLeadsDone
  dsimp only
  (repeat' split) <;> exact h

theorem boxed_mountRead (block page : Nat) (k : PageClass) (h : s.boxed P) : (s.mountRead block page k).boxed P := by
  unfold State.mountRead
  split
  · exact boxed_mountLead _ _ h
  · exact boxed_mountPage hP _ _ _ h
  · exact h

theorem boxed_mountChecked (blank : Bool) (h : s.boxed P) : (s.mountChecked blank).boxed P := by
  unfold State.mountChecked
  split
  · exact boxed_growRun hP (State.boxed_stg h (by simp))
  · split
    · exact boxed_growRun hP (s := { s with com.ahead := s.com.ahead + 1, mir.dirty := true }) h
    · exact boxed_endMount hP h
  · exact h

theorem boxed_startChecked (block : Nat) (blank : Bool) (h : s.boxed P) : (s.startChecked block blank).boxed P := by
  unfold State.startChecked
  split
  · exact State.boxed_stg h (by simp)
  · exact boxed_mountChecked hP blank h
  · exact h

/-! ### Every command -/

omit hP in
theorem boxed_storeEnd (p : Port) (i : SlotId) (q : DramReq) (h : s.boxed P) (hP : OutboxClosed P) : (s.storeEnd p i q).boxed P := by
  unfold State.storeEnd
  dsimp only
  split
  · exact State.boxed_stg (boxed_faultRecord hP (portCode p) (readsOf s.dram.cells q) (s := (s.carryOut q).endGrant)
      (State.boxed_stg h (by simp))) (by simp)
  · exact State.boxed_stg h (by simp)

theorem boxed_plainEnd (p : Port) (q : DramReq) (h : s.boxed P) : (s.plainEnd p q).boxed P :=
  State.boxed_stg (boxed_faultRecord hP (portCode p) (readsOf s.dram.cells q) (s := (s.carryOut q).endGrant)
      (State.boxed_stg h (by simp))) (by simp [State.plainEnd])

theorem boxed_portGrantEnd (p : Port) (h : s.boxed P) : (s.portGrantEnd p).boxed P := by
  unfold State.portGrantEnd
  split
  · exact boxed_plainEnd hP _ _ h
  · exact State.boxed_stg h (by simp)
  · exact boxed_storeEnd _ _ _ h hP
  · exact h

omit hP in
theorem boxed_endGrant (h : s.boxed P) : s.endGrant.boxed P := State.boxed_stg h (by simp)

omit hP in
theorem boxed_journalAnswer (p : Port) (x : Option Reason × State) (h : x.2.boxed P) : (State.journalAnswer p x).boxed P :=
  State.boxed_stg h (by simp)

/-- Every command keeps what the moves of the outbox keep. -/
theorem exec_boxed {c : Instr} (h : exec c s = .next t) (hs : s.boxed P) : t.boxed P := by
  have same {u : State} (hu : u.stg = s.stg) : u.boxed P := State.boxed_stg hs hu
  cases c
  case portRequestArrival | arbiterChoice =>
    simp only [exec, execPortRequestArrival, execArbiterChoice] at h
    (repeat' split at h) <;> cases h <;> exact same (by simp)
  case programEnd ds =>
    simp only [exec, execProgramEnd] at h
    (repeat' split at h) <;> cases h
    · exact same (by simp)
    · exact boxed_burnTakes (same (by simp)) (fun _ => same (by simp))
    · exact hs
  case eraseEnd ds =>
    simp only [exec, execEraseEnd] at h
    (repeat' split at h) <;> cases h
    · exact same (by simp)
    · exact boxed_burnTakes (same (by simp)) (fun _ => same (by simp))
    · exact hs
  case powerOn => cases h; exact hP.empty
  case powerLoss => cases h; exact hP.empty
  case restartAsserted =>
    cases h
    split
    · exact hP.empty
    · exact hs
  case recoveryReadComplete =>
    cases h
    split
    · exact boxed_recoverSlot hP _ _ _ (boxed_faultRecord hP _ _ (same (by simp)))
    · exact hs
  case openingWord p =>
    cases h
    split
    · exact boxed_journalAnswer _ _ (boxed_openRecord hP _ _ _ _ (same (by simp)))
    · exact hs
  case payloadWord p =>
    cases h
    split
    · exact boxed_journalAnswer _ _ (boxed_putPayload _ _ _ _ _ (same (by simp)))
    · exact hs
  case journalBurst p =>
    cases h
    split
    · exact boxed_journalAnswer _ _ (boxed_journalWords hP _ _ _ _ (same (by simp)))
    · exact hs
  case assemblyLimitExpiry p c =>
    cases h
    split
    · split
      · exact boxed_abandon hP _ _ _ (same (by simp))
      · exact hs
    · exact hs
  case ringWriteStart =>
    cases h
    split
    · split <;> exact hs
    · exact hs
  case ringWriteComplete =>
    cases h
    split
    · refine boxed_settle hP (State.boxed_congr hs ?_ ?_) <;> simp [State.recordStaged]
    · exact hs
  case outboxDeparture =>
    cases h
    split
    next ho =>
      split
      · exact boxed_depart hP _ _ hs ho
      · exact hs
    next => exact hs
  case captureConsumed =>
    cases h
    split
    · exact boxed_consumeOne hP hs
    · exact hs
  case candidateReadComplete =>
    cases h
    split
    · exact boxed_candidate hP _ (same (by simp))
    · exact hs
  case flushDeadlineExpiry =>
    cases h
    split
    · split
      · exact boxed_settle hP (same (by simp))
      · exact hs
    · exact hs
  case goInFlight =>
    cases h
    split
    · have hn := boxed_noteResume hP (s := State.markIf (decide (16 ≤ s.com.headPage)) { s with com := s.com.launchNext }) hs
      exact boxed_settle hP (State.boxed_stg hn (by simp))
    · exact hs
  case readJobEnd =>
    cases h
    split
    · exact same (by simp)
    · exact same (by simp)
    · exact same (by simp)
    · exact boxed_mountRead hP _ _ _ (same (by simp))
    · exact hs
  case blankCheckEnd =>
    cases h
    split
    · split
      · exact same (by simp)
      · exact boxed_upkeepFailed hP _ (same (by simp))
    · exact boxed_burnTakes (same (by simp)) (fun b => boxed_burnBlanked hP _ _ (same (by simp)))
    · exact boxed_startChecked hP _ _ (same (by simp))
    · exact hs
  case verifyEnd =>
    cases h
    split
    · exact boxed_pageVerified hP _ (same (by simp))
    · exact boxed_burnTakes (same (by simp)) (fun b => boxed_burnVerified hP _ _ _ (same (by simp)))
    · exact hs
  case flashTimeout =>
    cases h
    split
    · split
      · exact boxed_timedOut hP _ (same (by simp))
      · exact hs
    · exact hs
  case eraseAbortEnd =>
    cases h
    split
    · dsimp only
      split
      · exact boxed_burnTakes (same (by simp)) (fun _ => same (by simp))
      · exact same (by simp)
    · exact hs
  case slotFillComplete =>
    cases h
    split
    · exact boxed_storeEnd _ _ _ hs hP
    · exact hs
  case imageIdleExpiry =>
    cases h
    split
    · split
      · exact boxed_burnResult hP _ _ _ _ (same (by simp))
      · exact hs
    · exact hs
  case burnStart =>
    cases h
    (repeat' split) <;> try exact hs
    exact boxed_burnStep1 hP _ (same (by simp))
  case burnShadowReadComplete =>
    cases h
    split
    · split
      · dsimp only
        split
        · exact boxed_burnEnd hP _ _ _ (same (by simp))
        · split
          · exact boxed_burnRead hP _ _ (same (by simp))
          · exact hs
      · exact hs
    · exact hs
  case sourceFetchComplete =>
    cases h
    split
    · split
      · dsimp only
        split
        · exact boxed_fetched hP _ _ _ (same (by simp))
        · exact hs
      · exact hs
    · exact hs
  case portDramGrantEnd =>
    cases h
    split
    · exact boxed_portGrantEnd hP _ hs
    · exact boxed_portGrantEnd hP _ hs
    · exact hs
  case writeBackEnd =>
    cases h
    split
    · exact boxed_endGrant (boxed_faultRecord hP _ _ (same (by simp)))
    · exact hs
  case patrolReadEnd =>
    cases h
    split
    · exact boxed_endGrant (boxed_faultRecord hP _ _ (same (by simp)))
    · exact hs
  case refreshTimerExpiry =>
    cases h
    split
    · split
      · exact hs
      · exact boxed_loseRefresh hP hs
    · exact hs
  case selfRefreshExit =>
    cases h
    have hw : (s.pass (1 - s.dram.residency)).wakeDram.boxed P := same (by simp)
    split
    · dsimp only
      split
      · exact hw
      · exact boxed_leaveDoze hP hw
      · exact boxed_leavePfHalt hP hw
      · exact hw
    · exact hs
  case lpreqAsserted =>
    cases h
    split
    · exact hs
    · dsimp only
      split
      · exact boxed_enterSettling hP hs
      · exact hs
  case lpreqReleased =>
    cases h
    split
    · dsimp only
      split
      · split
        · exact hs
        · exact boxed_enterRun hP (boxed_cancelEntry hP _ hs)
      · exact same (by simp)
    · exact hs
  case pfwAsserted =>
    cases h
    split
    · exact hs
    · dsimp only
      split
      · split
        · exact hs
        · exact boxed_enterPfDrain hP (boxed_cancelEntry hP _ hs)
      · exact same (by simp)
  case pfwReleased =>
    cases h
    split
    · dsimp only
      split
      · split
        · exact hs
        · exact boxed_enterByLpreq hP (same (by simp))
      · exact hs
      · exact hs
    · exact hs
  case dozeAnnouncement =>
    cases h
    split
    · exact boxed_offerNow hP _ _ _ (s := { s with pow.entryPending := true }) hs
    · exact hs
  case quietExpiry =>
    cases h
    split
    · split
      next r _ _ =>
        have h1 : ((s.pass r).latchPayload .svp).boxed P := same (by simp)
        have h2 := boxed_offerNow hP 0xF3#8 false [numWord (saturate 65535 ((s.pass r).latchPayload .svp).quiet.count 1)]
          (s := State.mark { (s.pass r).latchPayload .svp with
            quiet.count := saturate 65535 ((s.pass r).latchPayload .svp).quiet.count 1 }) h1
        have h3 := boxed_abandonPort hP .svp causeSvrst (s := { State.offerNow _ _ _ _ with quiet.pulse := some 0 }) h2
        exact State.boxed_stg h3 rfl
      · exact hs
    · exact hs
  all_goals
    cases h
    try dsimp only
    try (repeat' split)
  all_goals exact same (by simp [State.beginUrgent_eq])

end Outbox

theorem mergeLoss_length (o : List Record) : (mergeLoss o).length = o.length := by
  induction o with
  | nil => rfl
  | cons r rs ih =>
    unfold mergeLoss
    split <;> simp [ih]

/-- The moves of the outbox keep it at eight records at most, and full whenever the LOST count is above 0 (R31, R34). -/
theorem outboxClosed_full : OutboxClosed (fun o l => o.length ≤ 8 ∧ (0 < l → o.length = 8)) where
  offer o l r h ho := by
    obtain ⟨-, h⟩ := h
    simp only [List.length_append, List.length_singleton]
    omega
  lose o l h ho := by omega
  merge o l h := by rwa [mergeLoss_length]
  depart o l r r' h := by
    simp only [List.length_cons] at h
    split <;> simp <;> omega
  front o l r h ho := by
    simp only [List.length_cons]
    omega
  frontLose o l r h ho := by
    simp only [List.length_cons, List.length_take]
    omega
  empty := by simp

/-- Settles O25: a millisecond leaves the outbox, and every command moves it by the moves of 2.7. -/
theorem lostCountOnlyWithFullOutbox : Obligations.LostCountOnlyWithFullOutbox := by
  unfold Obligations.LostCountOnlyWithFullOutbox
  intro s t ho hl h
  exact step_induct (P := State.boxed (fun o l => o.length ≤ 8 ∧ (0 < l → o.length = 8))) h ⟨ho, hl⟩ (fun _ => id)
    (fun hs => State.boxed_stg hs (by simp)) (fun c u hu he => exec_boxed outboxClosed_full he hu)

end Sys2Proof.Machine

namespace Sys2Proof.Machine
open Sys2Proof Sys2Proof.Machine Sys2Proof.Machine.Claims

/-! ## Page buffers and skip list (R45, R53) -/

/-- At most two page buffers are in use and at most sixteen blocks are listed. -/
def Commit.bounded (c : Commit) : Prop := c.buffersUsed ≤ 2 ∧ c.skip.length ≤ 16

section Buffers

variable {c : Commit}

theorem Commit.close_buffersUsed (k : CloseCause) (c : Commit) : (c.close k).buffersUsed = c.buffersUsed := by
  unfold Commit.close
  split
  next => rfl
  next f hf => simp [Commit.buffersUsed, hf]

@[simp] theorem Commit.close_skip (k : CloseCause) (c : Commit) : (c.close k).skip = c.skip := by
  unfold Commit.close
  split <;> rfl

theorem Commit.close_bounded (k : CloseCause) (h : c.bounded) : (c.close k).bounded := by
  simpa [Commit.bounded, Commit.close_buffersUsed] using h

theorem Commit.refill_bounded (h : c.bounded) : c.refill.bounded := by
  obtain ⟨hu, hs⟩ := h
  unfold Commit.refill
  by_cases hf : (c.filling.isNone && decide (c.closed.length + (if c.inflight.isSome then 1 else 0) < 2)) = true
  · rw [if_pos hf]
    simp only [Bool.and_eq_true, decide_eq_true_eq] at hf
    obtain ⟨-, hl⟩ := hf
    refine ⟨?_, hs⟩
    simp only [Commit.buffersUsed, Option.isSome_some, if_true]
    omega
  · rw [if_neg hf]
    exact ⟨hu, hs⟩

/-- A commit side with other contents in its FILLING buffer is bounded as before. -/
theorem Commit.bounded_of_filling {d : Commit} (hc : c.filling.isSome = true) (hd : d.filling.isSome = true)
    (hl : d.closed = c.closed) (hi : d.inflight = c.inflight) (hs : d.skip = c.skip) (h : c.bounded) : d.bounded := by
  simpa [Commit.bounded, Commit.buffersUsed, hc, hd, hl, hi, hs] using h

/-- The commit side with a candidate placed in its FILLING buffer (R44), before an urgent one closes it. -/
def Commit.withPlaced (p : Profile) (f : FillBuf) (x : Candidate) (c : Commit) : Commit :=
  let queues := c.queues.set x.body.cls (c.queues.get x.body.cls).tail
  { c with
    queues := queues
    placedSeq := c.placedSeq.set x.body.cls x.body.seq
    placedPresent := c.placedPresent.set x.body.cls true
    filling := some { recs := f.recs ++ [x.body], flush := if f.recs.isEmpty then 0 else f.flush }
    sched := if queues.toList.all List.isEmpty then startOfRound p
      else chargeSched p x.alg c.sched x.body (queues.get x.body.cls).isEmpty }

theorem Commit.place_eq (p : Profile) (f : FillBuf) (x : Candidate) (c : Commit) :
    Commit.place p f x c = if x.body.urgent then (c.withPlaced p f x).close .urgent else c.withPlaced p f x := by
  unfold Commit.place Commit.withPlaced Commit.drained
  by_cases hu : x.body.urgent = true <;> by_cases hq : (c.queues.set x.body.cls (c.queues.get x.body.cls).tail).toList.all List.isEmpty = true <;>
    simp only [hu, hq, if_true, if_false, Bool.false_eq_true] <;> rfl

theorem Commit.place_bounded (p : Profile) (f : FillBuf) (x : Candidate) (hf : c.filling = some f) (h : c.bounded) :
    (Commit.place p f x c).bounded := by
  have hw : (c.withPlaced p f x).bounded := Commit.bounded_of_filling (c := c) (by rw [hf]; rfl) rfl rfl rfl rfl h
  rw [Commit.place_eq]
  split
  · exact Commit.close_bounded _ hw
  · exact hw

theorem Commit.arrive_bounded (p : Profile) (x : Candidate) (h : c.bounded) : (Commit.arrive p x c).bounded := by
  unfold Commit.arrive
  split
  next => exact h
  next f hf =>
    split
    · exact Commit.place_bounded p f x hf h
    · exact Commit.close_bounded .fit h

theorem Commit.placeHeld_bounded (p : Profile) (h : c.bounded) : (c.placeHeld p).bounded := by
  unfold Commit.placeHeld
  split
  next x f _ hf => exact Commit.place_bounded p f x (c := { c with held := none }) hf h
  next => exact h

theorem Commit.turnOver_bounded (p : Profile) (h : c.bounded) : (c.turnOver p).bounded :=
  Commit.refill_bounded (Commit.placeHeld_bounded p (Commit.refill_bounded h))

theorem Commit.moveHead_bounded (h : c.bounded) : c.moveHead.bounded := by
  unfold Commit.moveHead
  split
  next => exact h
  next => exact ⟨h.1, Nat.le_trans (List.length_filter_le _ _) h.2⟩

theorem Commit.launch_bounded (b : ClosedBuf) (retry : Bool) (h : c.bounded)
    (hu : c.inflight.isSome = true ∨ c.buffersUsed ≤ 1) : (Commit.launch b retry c).bounded := by
  obtain ⟨hm, hs⟩ := Commit.moveHead_bounded h
  have hi : c.moveHead.inflight = c.inflight ∧ c.moveHead.buffersUsed = c.buffersUsed := by
    unfold Commit.moveHead
    split <;> exact ⟨rfl, rfl⟩
  refine ⟨?_, hs⟩
  simp only [Commit.launch, Commit.buffersUsed, Option.isSome_some, if_true]
  rw [← hi.1, ← hi.2] at hu
  simp only [Commit.buffersUsed] at hu hm
  rcases hu with hu | hu
  · rwa [if_pos hu] at hm
  · exact Nat.le_trans (Nat.add_le_add_right (Nat.le_trans (Nat.le_add_right _ _) hu) 1) (by omega)

theorem Commit.launchNext_bounded (h : c.bounded) : c.launchNext.bounded := by
  unfold Commit.launchNext
  split
  next f hf => exact Commit.launch_bounded _ _ h (.inl (by simp [hf]))
  next b rest hf hc =>
    obtain ⟨hu, hs⟩ := h
    have hl : ({ c with closed := rest } : Commit).buffersUsed ≤ 1 := by
      simp only [Commit.buffersUsed, hc, hf, List.length_cons] at hu ⊢
      omega
    exact Commit.launch_bounded _ _ ⟨Nat.le_trans hl (by omega), hs⟩ (.inr hl)
  next => exact h

theorem joinSkip_length (skip : List Nat) (b : Nat) (h : skip.length ≤ 16) : (joinSkip skip b).length ≤ 16 := by
  unfold joinSkip
  split
  next hl => simp; omega
  next => exact h

theorem resetCommit_bounded (p : Profile) : (resetCommit p).bounded := by
  simp [Commit.bounded, Commit.buffersUsed, resetCommit]

end Buffers

/-! ### The operations of the state -/

section Commits

variable {s t : State}

theorem Commit.bounded_congr (h : s.com.bounded) (ht : t.com = s.com) : t.com.bounded := ht ▸ h

theorem noteStall_bounded (h : s.com.bounded) : s.noteStall.com.bounded := by
  unfold State.noteStall
  split
  · exact ⟨by simpa [Commit.buffersUsed] using h.1, by simpa using h.2⟩
  · exact h

theorem settle_bounded (h : s.com.bounded) : s.settle.com.bounded := by
  have ht := Commit.turnOver_bounded s.prof h
  unfold State.settle
  dsimp only
  split
  · exact noteStall_bounded (s := { s with com := _ }) (Commit.turnOver_bounded _ (Commit.close_bounded _ ht))
  · exact noteStall_bounded (s := { s with com := _ }) ht

theorem noteResume_bounded (h : s.com.bounded) : s.noteResume.com.bounded := by
  unfold State.noteResume
  split
  · exact ⟨by simpa [Commit.buffersUsed] using h.1, by simpa using h.2⟩
  · exact h

theorem confirmPage_bounded (f : InFlight) (h : s.com.bounded) : (s.confirmPage f).com.bounded := by
  have hu : s.com.closed.length + (if s.com.filling.isSome then 1 else 0) ≤ 2 := Nat.le_trans (Nat.le_add_right _ _) h.1
  exact ⟨hu, h.2⟩

theorem failPage_bounded (f : InFlight) (hf : s.com.inflight = some f) (h : s.com.bounded) : (s.failPage f).com.bounded := by
  obtain ⟨hu, hs⟩ := h
  have hb : ({ s.com with inflight := some { f with waiting := true } } : Commit).buffersUsed ≤ 2 := by
    simpa [Commit.buffersUsed, hf] using hu
  unfold State.failPage
  dsimp only
  split
  · exact ⟨by simpa [State.abandonBlock, Commit.buffersUsed] using hb,
      by simpa [State.abandonBlock] using joinSkip_length _ _ hs⟩
  · exact ⟨by simpa [Commit.buffersUsed] using hb, by simpa using hs⟩

theorem upkeepFailed_bounded (block : Nat) (h : s.com.bounded) : (s.upkeepFailed block).com.bounded := by
  unfold State.upkeepFailed
  dsimp only
  split
  · exact ⟨by simpa [Commit.buffersUsed] using h.1, by simpa using joinSkip_length _ _ h.2⟩
  · simpa [Commit.bounded, Commit.buffersUsed] using h

theorem candidate_bounded (x : Candidate) (h : s.com.bounded) : (s.candidate x).com.bounded := by
  unfold State.candidate
  dsimp only
  split
  · exact settle_bounded (s := { s with com := _ }) (Commit.arrive_bounded _ x (c := { s.com with fetching := none }) h)
  · exact h
  · exact h

theorem pageVerified_bounded (matched : Bool) (h : s.com.bounded) : (s.pageVerified matched).com.bounded := by
  unfold State.pageVerified
  split
  next f hf =>
    cases matched
    · exact settle_bounded (failPage_bounded f hf h)
    · exact settle_bounded (confirmPage_bounded f h)
  next => exact h

theorem pageTimedOut_bounded (h : s.com.bounded) : s.pageTimedOut.com.bounded := by
  unfold State.pageTimedOut
  dsimp only
  split
  next f hf => exact settle_bounded (failPage_bounded (s := { s with flash.journal := [] }) f hf h)
  next => exact h

theorem burnTakes_com (f : Burn → State → State) (s : State) (hf : ∀ b, (f b s).com = s.com) : (s.burnTakes f).com = s.com :=
  State.burnTakes_keeps State.com f s (by simp) hf

theorem timedOut_bounded (j : Job) (h : s.com.bounded) : (s.timedOut j).com.bounded := by
  have hc : (s.cutOff j).finishJob.com.bounded := Commit.bounded_congr h (by simp)
  unfold State.timedOut
  dsimp only
  split
  · exact pageTimedOut_bounded hc
  · exact upkeepFailed_bounded _ hc
  · exact Commit.bounded_congr hc (burnTakes_com _ _ (by simp))

theorem enterSettling_bounded (h : s.com.bounded) : s.enterSettling.com.bounded :=
  settle_bounded (Commit.bounded_congr h (by simp))

theorem enterRoused_bounded (h : s.com.bounded) : s.enterRoused.com.bounded := settle_bounded h

theorem enterRun_bounded (h : s.com.bounded) : s.enterRun.com.bounded := settle_bounded (Commit.bounded_congr h (by simp))

theorem enterPfDrain_bounded (h : s.com.bounded) : s.enterPfDrain.com.bounded := settle_bounded (Commit.bounded_congr h (by simp))

theorem enterByLpreq_bounded (h : s.com.bounded) : s.enterByLpreq.com.bounded := by
  unfold State.enterByLpreq
  split
  · exact enterSettling_bounded h
  · exact enterRun_bounded h

theorem leaveDoze_bounded (h : s.com.bounded) : s.leaveDoze.com.bounded := by
  unfold State.leaveDoze
  dsimp only
  split
  · exact enterPfDrain_bounded (Commit.bounded_congr h (by simp))
  · split
    · exact enterRoused_bounded (Commit.bounded_congr h (by simp))
    · exact enterRun_bounded (Commit.bounded_congr h (by simp))

theorem leavePfHalt_bounded (h : s.com.bounded) : s.leavePfHalt.com.bounded := by
  unfold State.leavePfHalt
  dsimp only
  split
  · exact enterPfDrain_bounded h
  · exact enterByLpreq_bounded h

theorem openPhase_bounded (h : s.com.bounded) : s.openPhase.com.bounded := by
  unfold State.openPhase State.leaveStarting
  dsimp only
  split
  · exact enterPfDrain_bounded (Commit.bounded_congr h (by simp))
  · exact enterByLpreq_bounded (Commit.bounded_congr h (by simp))

theorem recoverAfter_bounded (c : ClassId) (h : s.com.bounded) : (s.recoverAfter c).com.bounded := by
  unfold State.recoverAfter
  dsimp only
  split
  · exact openPhase_bounded h
  · exact h

theorem recoverSlot_bounded (c : ClassId) (q : Seq) (accepted : Bool) (h : s.com.bounded) :
    (s.recoverSlot c q accepted).com.bounded := by
  have hr : (s.recoverRecord c q).com.bounded := h
  unfold State.recoverSlot
  dsimp only
  split
  · split
    · exact recoverAfter_bounded c hr
    · exact hr
  · exact recoverAfter_bounded c h

theorem endMount_bounded (h : s.com.bounded) : s.endMount.com.bounded := by
  unfold State.endMount State.beginRecovery
  split
  · exact h
  · exact openPhase_bounded h

theorem growRun_bounded (h : s.com.bounded) : s.growRun.com.bounded := by
  unfold State.growRun
  dsimp only
  split
  · exact h
  · exact endMount_bounded h

theorem mountPage_bounded (block page : Nat) (k : PageClass) (h : s.com.bounded) : (s.mountPage block page k).com.bounded := by
  unfold State.mountPage State.mountPagesDone
  dsimp only
  split
  · exact h
  · split
    · exact growRun_bounded h
    · exact h

theorem mountLead_bounded (block : Nat) (k : PageClass) (h : s.com.bounded) : (s.mountLead block k).com.bounded := by
  unfold State.mountLead State.mountLeadsDone
  dsimp only
  (repeat' split) <;> exact h

theorem mountRead_bounded (block page : Nat) (k : PageClass) (h : s.com.bounded) : (s.mountRead block page k).com.bounded := by
  unfold State.mountRead
  split
  · exact mountLead_bounded _ _ h
  · exact mountPage_bounded _ _ _ h
  · exact h

theorem mountChecked_bounded (blank : Bool) (h : s.com.bounded) : (s.mountChecked blank).com.bounded := by
  unfold State.mountChecked
  split
  · exact growRun_bounded h
  · split
    · exact growRun_bounded (s := { s with com.ahead := s.com.ahead + 1, mir.dirty := true }) h
    · exact endMount_bounded h
  · exact h

theorem startChecked_bounded (block : Nat) (blank : Bool) (h : s.com.bounded) : (s.startChecked block blank).com.bounded := by
  unfold State.startChecked
  split
  · exact Commit.bounded_congr h (by simp)
  · exact mountChecked_bounded blank h
  · exact h

theorem loadProfile_bounded (h : s.com.bounded) : s.loadProfile.com.bounded := by
  unfold State.loadProfile
  split <;> exact h

/-- Passing time lets the flush deadline of a FILLING buffer run and leaves the rest of the Commit Engine (R46). -/
theorem pass_bounded (n : Nat) (h : s.com.bounded) : (s.pass n).com.bounded := by
  have hf (f : FillBuf → FillBuf) : ({ s.com with filling := s.com.filling.map f } : Commit).bounded := by
    simpa [Commit.bounded, Commit.buffersUsed] using h
  unfold State.pass
  split
  · exact h
  · dsimp only
    split
    · exact hf _
    · exact h

/-- Every command keeps the page buffers and the skip list in their ranges. -/
theorem exec_commitBounded {c : Instr} (h : exec c s = .next t) (hs : s.com.bounded) : t.com.bounded := by
  have same {u : State} (hu : u.com = s.com) : u.com.bounded := Commit.bounded_congr hs hu
  cases c
  case portRequestArrival | arbiterChoice =>
    simp only [exec, execPortRequestArrival, execArbiterChoice] at h
    (repeat' split at h) <;> cases h <;> exact same (by simp)
  case programEnd ds =>
    simp only [exec, execProgramEnd] at h
    (repeat' split at h) <;> cases h
    · exact same (by simp)
    · exact same (by simp [burnTakes_com])
    · exact hs
  case eraseEnd ds =>
    simp only [exec, execEraseEnd] at h
    (repeat' split at h) <;> cases h
    · exact same (by simp)
    · exact same (by simp [burnTakes_com])
    · exact hs
  case powerOn => cases h; exact resetCommit_bounded _
  case powerLoss => cases h; exact resetCommit_bounded _
  case restartAsserted =>
    cases h
    split
    · exact resetCommit_bounded _
    · exact hs
  case recoveryReadComplete =>
    cases h
    split
    · exact recoverSlot_bounded _ _ _ (same (by simp))
    · exact hs
  case assemblyLimitExpiry =>
    cases h
    split
    · split
      · exact by simpa using pass_bounded _ hs
      · exact hs
    · exact hs
  case ringWriteComplete =>
    cases h
    split
    · refine settle_bounded ?_
      have hc : ∀ (e : RingEntry) (q : Seq) (u : State), u.com = s.com → (u.recordStaged e q).beginEntry.com.bounded := by
        intro e q u hu
        simpa [State.recordStaged, hu, Commit.bounded, Commit.buffersUsed] using hs
      exact hc _ _ _ (by simp)
    · exact hs
  case schedulerChoice =>
    cases h
    (repeat' split) <;> exact hs
  case candidateReadComplete =>
    cases h
    split
    · exact candidate_bounded _ (same (by simp))
    · exact hs
  case flushDeadlineExpiry =>
    cases h
    split
    · split
      · exact settle_bounded (s := { s.pass _ with com := _ }) (Commit.close_bounded _ (pass_bounded _ hs))
      · exact hs
    · exact hs
  case goInFlight =>
    cases h
    split
    · have hn := noteResume_bounded (s := State.markIf (decide (16 ≤ s.com.headPage)) { s with com := s.com.launchNext })
        (Commit.launchNext_bounded hs)
      exact settle_bounded (Commit.bounded_congr hn (by simp))
    · exact hs
  case readJobEnd =>
    cases h
    split
    · exact same (by simp)
    · exact hs
    · exact Commit.bounded_congr (loadProfile_bounded (s := s.finishJob) hs) (by simp)
    · exact mountRead_bounded _ _ _ (same (by simp))
    · exact hs
  case blankCheckEnd =>
    cases h
    split
    · split
      · exact hs
      · exact upkeepFailed_bounded _ (same (by simp))
    · exact same (by simp [burnTakes_com])
    · exact startChecked_bounded _ _ (same (by simp))
    · exact hs
  case verifyEnd =>
    cases h
    split
    · exact pageVerified_bounded _ (same (by simp))
    · exact same (by simp [burnTakes_com])
    · exact hs
  case flashTimeout =>
    cases h
    split
    · split
      · exact timedOut_bounded _ (pass_bounded _ hs)
      · exact hs
    · exact hs
  case imageIdleExpiry =>
    cases h
    split
    · split
      · exact by simpa using pass_bounded _ hs
      · exact hs
    · exact hs
  case selfRefreshExit =>
    cases h
    have hw : (s.pass (1 - s.dram.residency)).wakeDram.com.bounded :=
      Commit.bounded_congr (pass_bounded (1 - s.dram.residency) hs) (by simp)
    split
    · dsimp only
      split
      · exact hw
      · exact leaveDoze_bounded hw
      · exact leavePfHalt_bounded hw
      · exact hw
    · exact hs
  case lpreqAsserted =>
    cases h
    split
    · exact hs
    · dsimp only
      split
      · exact enterSettling_bounded hs
      · exact hs
  case lpreqReleased =>
    cases h
    split
    · dsimp only
      split
      · split
        · exact hs
        · exact enterRun_bounded (same (by simp))
      · exact same (by simp)
    · exact hs
  case pfwAsserted =>
    cases h
    split
    · exact hs
    · dsimp only
      split
      · split
        · exact hs
        · exact enterPfDrain_bounded (same (by simp))
      · exact same (by simp)
  case pfwReleased =>
    cases h
    split
    · dsimp only
      split
      · split
        · exact hs
        · exact enterByLpreq_bounded hs
      · exact hs
      · exact hs
    · exact hs
  case relapseTimerExpiry =>
    cases h
    split
    · exact pass_bounded _ hs
    · exact hs
  case wakeTimerExpiry =>
    cases h
    split
    · split
      · exact by simpa using pass_bounded _ hs
      · exact hs
    · exact hs
  case debounceEnd =>
    cases h
    split
    · dsimp only
      split
      · exact pass_bounded _ hs
      · exact by simpa using pass_bounded _ hs
    · exact hs
  case quietExpiry =>
    cases h
    split
    · split
      · exact by simpa using pass_bounded _ hs
      · exact hs
    · exact hs
  case svrstPulseEnd =>
    cases h
    split
    · exact pass_bounded _ hs
    · exact hs
  all_goals
    cases h
    try dsimp only
    try (repeat' split)
  all_goals exact same (by simp [State.beginUrgent_eq, burnTakes_com])

end Commits
end Sys2Proof.Machine

namespace Sys2Proof.Machine
open Sys2Proof Sys2Proof.Machine Sys2Proof.Machine.Claims

/-! ## Counts of the DRAM Controller (R132, R133, R142, R145) -/

/-- The counts and the correction queue lie in their ranges. -/
structure Dram.Bounded (d : Dram) : Prop where
  corrected : d.corrected ≤ 65535
  uncorrectable : d.uncorrectable ≤ 65535
  lost : d.lostRefresh ≤ 65535
  correction : d.correction.length ≤ 4
  owed : d.owed ≤ 8
  patrol : d.patrol ≤ 2

section DramCounts

variable {s t : State}

/-- The counts, the correction queue and what is owed, together. -/
def Dram.counts (d : Dram) : Nat × Nat × Nat × List Nat × Nat × Nat :=
  (d.corrected, d.uncorrectable, d.lostRefresh, d.correction, d.owed, d.patrol)

/-- A DRAM Controller written out with the counts of another has its counts, whatever the other fields. -/
@[simp] theorem Dram.counts_mk (d : Dram) (cells : List (Nat × Code)) (mode : DramMode) (rows : Four RowEntry)
    (passover : PerSource Nat) (waiting : PerSource (Option DramReq)) (grant : Option Grant) (refresh : RefreshPhase)
    (timerOn : Bool) (period scrub : Nat) (entryReq : Option EntryWhy) (exitReq : Bool) (residency : Nat) :
    (Dram.mk cells mode rows passover waiting grant d.correction d.corrected d.uncorrectable refresh d.owed timerOn period
      d.lostRefresh d.patrol scrub entryReq exitReq residency).counts = d.counts := rfl

theorem Dram.Bounded.congr {d e : Dram} (h : d.Bounded) (hc : e.counts = d.counts) : e.Bounded := by
  simp only [Dram.counts, Prod.mk.injEq] at hc
  obtain ⟨h1, h2, h3, h4, h5, h6⟩ := hc
  exact ⟨h1 ▸ h.corrected, h2 ▸ h.uncorrectable, h3 ▸ h.lost, h4 ▸ h.correction, h5 ▸ h.owed, h6 ▸ h.patrol⟩

theorem resetDram_bounded (banks : Nat) (cells : List (Nat × Code)) (mode : DramMode) : (resetDram banks cells mode).Bounded := by
  constructor <;> simp [resetDram]

theorem offerCorrection_length (q : List Nat) (off : Nat) (h : q.length ≤ 4) : (offerCorrection q off).length ≤ 4 := by
  unfold offerCorrection
  split
  · exact h
  · split
    · simp; omega
    · exact h

theorem eccWord_dramBounded (offers : Bool) (r : Nat × EccResult) (h : s.dram.Bounded) : (State.eccWord offers s r).dram.Bounded := by
  unfold State.eccWord
  split
  · exact h
  · refine ⟨Nat.min_le_left _ _, h.uncorrectable, h.lost, ?_, h.owed, h.patrol⟩
    dsimp only
    split
    · exact offerCorrection_length _ _ h.correction
    · exact h.correction
  · exact ⟨h.corrected, Nat.min_le_left _ _, h.lost, h.correction, h.owed, h.patrol⟩

theorem eccRead_dramBounded (offers : Bool) (rs : List (Nat × EccResult)) (h : s.dram.Bounded) :
    (State.eccRead offers rs s).dram.Bounded := by
  unfold State.eccRead
  induction rs generalizing s with
  | nil => exact h
  | cons r rs ih => exact ih (eccWord_dramBounded offers r h)

theorem beginEntry_dramBounded (h : s.dram.Bounded) : s.beginEntry.dram.Bounded := by
  unfold State.beginEntry
  split
  · exact h.congr rfl
  · exact h

theorem endGrant_dramBounded (h : s.dram.Bounded) : s.endGrant.dram.Bounded :=
  beginEntry_dramBounded (s := { s with dram.grant := none }) (h.congr rfl)

theorem requestEntry_dramBounded (why : EntryWhy) (h : s.dram.Bounded) : (s.requestEntry why).dram.Bounded :=
  beginEntry_dramBounded (s := { s with dram.entryReq := some why }) (h.congr rfl)

theorem carried_dramBounded (q : DramReq) (h : s.dram.Bounded) : (s.carryOut q).endGrant.dram.Bounded :=
  endGrant_dramBounded (eccRead_dramBounded _ _ (s := { s with dram.cells := cellsAfter s.dram.cells q })
    (h.congr rfl))

theorem portGrantEnd_dramBounded (p : Port) (h : s.dram.Bounded) : (s.portGrantEnd p).dram.Bounded := by
  rcases State.portGrantEnd_dram p s with e | ⟨q, e⟩ <;> rw [e]
  · exact h
  · exact carried_dramBounded q h

theorem present_dramBounded (who : Source) (q : DramReq) (h : s.dram.Bounded) : (s.present who q).dram.Bounded :=
  h.congr rfl

theorem beginGrant_dramBounded (g : Grant) (h : s.dram.Bounded) : (s.beginGrant g).dram.Bounded := by
  cases g <;> exact h.congr rfl

theorem burnReadNext_dramBounded (b : Burn) (q : DramReq) (h : s.dram.Bounded) : (s.burnReadNext b q).dram.Bounded := by
  have hc := carried_dramBounded q h
  unfold State.burnReadNext
  dsimp only
  split
  · split
    · exact h
    · exact hc.congr rfl
  · split
    · exact h
    · exact hc.congr rfl
  · exact hc

theorem loseRefresh_dramBounded (h : s.dram.Bounded) : s.loseRefresh.dram.Bounded := by
  have hl : s.loseRefresh.dram = { s.dram with lostRefresh := saturate 65535 s.dram.lostRefresh 1 } := by
    simp [State.loseRefresh]
  rw [hl]
  exact ⟨h.corrected, h.uncorrectable, Nat.min_le_left _ _, h.correction, h.owed, h.patrol⟩

/-- A DRAM Controller that owes fewer refreshes and as many patrol reads is in its ranges. -/
theorem Dram.Bounded.paid {d : Dram} (h : d.Bounded) (phase : RefreshPhase) :
    ({ d with owed := d.owed - 1, refresh := phase } : Dram).Bounded :=
  ⟨h.corrected, h.uncorrectable, h.lost, h.correction, Nat.le_trans (Nat.sub_le _ _) h.owed, h.patrol⟩

/-! ### Operations that leave every count -/

section Counts

@[simp] theorem present_counts (who : Source) (q : DramReq) (s : State) : (s.present who q).dram.counts = s.dram.counts := rfl

@[simp] theorem burnOffer_counts (b : Burn) (s : State) : (s.burnOffer b).dram.counts = s.dram.counts := by
  unfold State.burnOffer
  split <;> rfl

@[simp] theorem burnNext_counts (b : Burn) (s : State) : (s.burnNext b).dram.counts = s.dram.counts := by
  unfold State.burnNext
  split
  · exact burnOffer_counts b s
  · exact rfl

@[simp] theorem resumeBurn_counts (s : State) : s.resumeBurn.dram.counts = s.dram.counts := by
  unfold State.resumeBurn
  (repeat' split) <;> simp

@[simp] theorem burnStep2_counts (b : Burn) (words : List Word) (s : State) : (s.burnStep2 b words).dram.counts = s.dram.counts := by
  unfold State.burnStep2
  (repeat' split) <;> simp

@[simp] theorem burnRead_counts (b : Burn) (words : List Word) (s : State) : (s.burnRead b words).dram.counts = s.dram.counts := by
  unfold State.burnRead
  split <;> simp

@[simp] theorem burnBlanked_counts (b : Burn) (blank : Bool) (s : State) : (s.burnBlanked b blank).dram.counts = s.dram.counts := by
  unfold State.burnBlanked
  (repeat' split) <;> simp

@[simp] theorem burnProgrammed_counts (b : Burn) (s : State) : (s.burnProgrammed b).dram.counts = s.dram.counts := by
  unfold State.burnProgrammed
  split <;> simp

@[simp] theorem burnVerified_counts (b : Burn) (matched : Bool) (sum : Sum16) (s : State) :
    (s.burnVerified b matched sum).dram.counts = s.dram.counts := by
  unfold State.burnVerified
  dsimp only
  (repeat' split) <;> simp

@[simp] theorem burnStep1_counts (b : Burn) (s : State) : (s.burnStep1 b).dram.counts = s.dram.counts := by
  unfold State.burnStep1
  split <;> simp

@[simp] theorem burnRequeue_counts (b : Burn) (s : State) : (s.burnRequeue b).dram.counts = s.dram.counts := rfl

@[simp] theorem fetched_counts (b : Burn) (bad : Bool) (words : List Word) (s : State) :
    (s.fetched b bad words).dram.counts = s.dram.counts := by
  unfold State.fetched
  (repeat' split) <;> simp

@[simp] theorem stopBurn_counts (s : State) : s.stopBurn.dram.counts = s.dram.counts := by
  unfold State.stopBurn
  (repeat' split) <;> rfl

theorem burnTakes_counts (f : Burn → State → State) (s : State) (hf : ∀ b, (f b s).dram.counts = s.dram.counts) :
    (s.burnTakes f).dram.counts = s.dram.counts := State.burnTakes_keeps (·.dram.counts) f s (by simp) hf

@[simp] theorem timedOut_counts (j : Job) (s : State) : (s.timedOut j).dram.counts = s.dram.counts := by
  unfold State.timedOut
  dsimp only
  split <;> simp [burnTakes_counts]

@[simp] theorem wake_counts (cause : Nat) (s : State) : (s.wake cause).dram.counts = s.dram.counts := by
  unfold State.wake
  split <;> rfl

@[simp] theorem edge_counts (i : ClassId) (level : Bool) (s : State) : (s.edge i level).dram.counts = s.dram.counts := by
  unfold State.edge
  dsimp only
  (repeat' split) <;> simp

@[simp] theorem contactEvent_counts (i : ClassId) (level : Bool) (s : State) : (s.contactEvent i level).dram.counts = s.dram.counts := by
  unfold State.contactEvent
  split <;> simp

@[simp] theorem takeHeldAll_counts (s : State) : s.takeHeldAll.dram.counts = s.dram.counts := by
  have fold (es : List HeldEvent) (u : State) : (es.foldl State.takeHeld u).dram.counts = u.dram.counts := by
    induction es generalizing u with
    | nil => rfl
    | cons e es ih =>
      rw [List.foldl_cons, ih]
      cases e <;> simp [State.takeHeld]
  exact fold _ _

@[simp] theorem pass_counts (n : Nat) (s : State) : (s.pass n).dram.counts = s.dram.counts := by
  unfold State.pass
  split <;> rfl

@[simp] theorem mnpJoined_counts (s : State) : s.mnpJoined.dram.counts = s.dram.counts := by
  unfold State.mnpJoined
  split <;> simp

@[simp] theorem enterRun_counts (s : State) : s.enterRun.dram.counts = s.dram.counts := by simp [State.enterRun]

@[simp] theorem enterPfDrain_counts (s : State) : s.enterPfDrain.dram.counts = s.dram.counts := by simp [State.enterPfDrain]

@[simp] theorem enterByLpreq_counts (s : State) : s.enterByLpreq.dram.counts = s.dram.counts := by
  unfold State.enterByLpreq
  split <;> simp

@[simp] theorem leaveDoze_counts (s : State) : s.leaveDoze.dram.counts = s.dram.counts := by
  unfold State.leaveDoze
  dsimp only
  (repeat' split) <;> simp

@[simp] theorem leavePfHalt_counts (s : State) : s.leavePfHalt.dram.counts = s.dram.counts := by
  unfold State.leavePfHalt
  dsimp only
  split <;> simp

@[simp] theorem enterDoze_counts (s : State) : s.enterDoze.dram.counts = s.dram.counts := by simp [State.enterDoze]

@[simp] theorem enterPfHalt_counts (s : State) : s.enterPfHalt.dram.counts = s.dram.counts := rfl

@[simp] theorem imageWriteAt_counts (p : Port) (b word : Nat) (s : State) : (s.imageWriteAt p b word).dram.counts = s.dram.counts := by
  unfold State.imageWriteAt
  (repeat' split) <;> simp [State.startStore, State.startFill]

@[simp] theorem imageReadAt_counts (p : Port) (b word len : Nat) (s : State) :
    (s.imageReadAt p b word len).dram.counts = s.dram.counts := by
  unfold State.imageReadAt
  split <;> simp

@[simp] theorem portDram_counts (p : Port) (c : Carry) (q : DramReq) (s : State) : (s.portDram p c q).dram.counts = s.dram.counts := by
  simp [State.portDram]

/-! ### Start-up -/

@[simp] theorem loadProfile_counts (s : State) : s.loadProfile.dram.counts = s.dram.counts := by
  unfold State.loadProfile
  split <;> rfl

@[simp] theorem beginDram_counts (s : State) : s.beginDram.dram.counts = s.dram.counts := by
  unfold State.beginDram
  split <;> rfl

@[simp] theorem releaseResult_counts (code : Nat) (s : State) : (s.releaseResult code).dram.counts = s.dram.counts := by
  simp [State.releaseResult]

@[simp] theorem beginRelease_counts (s : State) : s.beginRelease.dram.counts = s.dram.counts := by
  unfold State.beginRelease
  (repeat' split) <;> simp

@[simp] theorem openPhase_counts (s : State) : s.openPhase.dram.counts = s.dram.counts := by
  unfold State.openPhase State.leaveStarting
  dsimp only
  split <;> simp

@[simp] theorem recoverAfter_counts (c : ClassId) (s : State) : (s.recoverAfter c).dram.counts = s.dram.counts := by
  unfold State.recoverAfter
  dsimp only
  split <;> simp [State.readSlot]

@[simp] theorem recoverSlot_counts (c : ClassId) (q : Seq) (accepted : Bool) (s : State) :
    (s.recoverSlot c q accepted).dram.counts = s.dram.counts := by
  unfold State.recoverSlot
  dsimp only
  (repeat' split) <;> simp [State.readSlot]

@[simp] theorem endMount_counts (s : State) : s.endMount.dram.counts = s.dram.counts := by
  unfold State.endMount State.beginRecovery
  split <;> simp [State.readSlot]

@[simp] theorem growRun_counts (s : State) : s.growRun.dram.counts = s.dram.counts := by
  unfold State.growRun
  dsimp only
  split <;> simp

@[simp] theorem mountRead_counts (block page : Nat) (k : PageClass) (s : State) :
    (s.mountRead block page k).dram.counts = s.dram.counts := by
  unfold State.mountRead State.mountPage State.mountPagesDone
  dsimp only
  (repeat' split) <;> simp

@[simp] theorem startChecked_counts (block : Nat) (blank : Bool) (s : State) :
    (s.startChecked block blank).dram.counts = s.dram.counts := by
  unfold State.startChecked State.mountChecked State.releaseChecked State.grantRelease
  (repeat' split) <;> simp

end Counts

theorem restart_dramBounded : s.restart.dram.Bounded := by
  have h : s.captureHeld.cutOffAll.restartDram.Bounded := by
    unfold State.restartDram
    split
    · exact (resetDram_bounded s.prof.banks [] .selfRefresh).congr rfl
    · exact resetDram_bounded _ _ _
  exact h

theorem filled_dramBounded (h : s.dram.Bounded) : s.filled.dram.Bounded :=
  ⟨h.corrected, h.uncorrectable, h.lost, h.correction, Nat.le_refl 8, h.patrol⟩

theorem sleepDram_dramBounded (h : s.dram.Bounded) : s.sleepDram.dram.Bounded :=
  ⟨h.corrected, h.uncorrectable, h.lost, h.correction, Nat.zero_le 8, h.patrol⟩

theorem wakeDram_dramBounded (h : s.dram.Bounded) : s.wakeDram.dram.Bounded :=
  ⟨h.corrected, h.uncorrectable, h.lost, h.correction, Nat.zero_le 8, h.patrol⟩

/-- What a trickle refresh hands out stays within two patrol reads (R145). -/
theorem Dram.Bounded.trickle {d : Dram} (h : d.Bounded) (share : Nat) :
    ({ d with owed := d.owed - 1, patrol := saturate 2 d.patrol share, refresh := .none } : Dram).Bounded :=
  ⟨h.corrected, h.uncorrectable, h.lost, h.correction, Nat.le_trans (Nat.sub_le _ _) h.owed, Nat.min_le_left _ _⟩

/-- Every command keeps the counts of the DRAM Controller in their ranges. -/
theorem exec_dramBounded {c : Instr} (h : exec c s = .next t) (hs : s.dram.Bounded) : t.dram.Bounded := by
  have same {u : State} (hu : u.dram.counts = s.dram.counts) : u.dram.Bounded := hs.congr hu
  have carried {u : State} (q : DramReq) (hu : u.dram.counts = (s.carryOut q).endGrant.dram.counts) : u.dram.Bounded :=
    (carried_dramBounded q hs).congr hu
  cases c
  case portRequestArrival | programEnd | eraseEnd | arbiterChoice =>
    simp only [exec, execPortRequestArrival, execProgramEnd, execEraseEnd, execArbiterChoice] at h
    (repeat' split at h) <;> cases h <;>
      first | exact same (by simp [burnTakes_counts]) | exact beginGrant_dramBounded _ (hs.congr rfl)
  case powerOn => cases h; exact resetDram_bounded _ _ _
  case powerLoss => cases h; exact resetDram_bounded _ _ _
  case restartAsserted =>
    cases h
    split
    · exact restart_dramBounded
    · exact hs
  case coldFillEnd =>
    cases h
    split
    · exact filled_dramBounded hs
    · exact hs
  case recoveryReadComplete =>
    cases h
    split
    next q r _ _ => exact carried q (by simp)
    next => exact hs
  case acknowledgeWrite p =>
    cases h
    split
    next q _ => exact carried q (by simp)
    next =>
      split
      · exact same (by simp)
      · exact hs
  case ringWriteComplete =>
    cases h
    split
    next q n e _ _ _ _ =>
      have hr := beginEntry_dramBounded (s := ((s.carryOut q).endGrant).recordStaged e n) (carried q rfl)
      exact hr.congr (by simp)
    next => exact hs
  case candidateReadComplete =>
    cases h
    split
    next q f _ _ => exact carried q (by simp)
    next => exact hs
  case slotFillComplete =>
    cases h
    split
    next p i q _ => exact carried q (by simp)
    next => exact hs
  case burnShadowReadComplete =>
    cases h
    split
    next q b _ _ =>
      split
      · dsimp only
        split
        · exact carried q (by simp)
        · split
          · exact carried q (by simp)
          · exact hs
      · exact hs
    next => exact hs
  case sourceFetchComplete =>
    cases h
    split
    next q b _ _ =>
      split
      · dsimp only
        split
        · exact carried q (by simp)
        · exact hs
      · exact hs
    next => exact hs
  case portDramGrantEnd =>
    cases h
    split
    · exact portGrantEnd_dramBounded _ hs
    · exact portGrantEnd_dramBounded _ hs
    · exact hs
  case writeBackEnd =>
    cases h
    split
    next off _ =>
      refine endGrant_dramBounded ((eccRead_dramBounded false (badOnly (readDram s.dram.cells off 1)) (s := { s with dram := { s.dram with
        cells := writeBackCells s.dram.cells off, correction := s.dram.correction.tail } }) ?_).congr (by simp))
      exact ⟨hs.corrected, hs.uncorrectable, hs.lost, (by simpa using Nat.le_trans (Nat.sub_le _ 1) hs.correction), hs.owed, hs.patrol⟩
    next => exact hs
  case patrolReadEnd =>
    cases h
    split
    next off _ =>
      refine endGrant_dramBounded ((eccRead_dramBounded true (readDram s.dram.cells off 8) (s := { s with dram := { s.dram with
        patrol := s.dram.patrol - 1, scrub := scrubNext s.prof s.dram.scrub } }) ?_).congr (by simp))
      exact ⟨hs.corrected, hs.uncorrectable, hs.lost, hs.correction, hs.owed, Nat.le_trans (Nat.sub_le _ _) hs.patrol⟩
    next => exact hs
  case refreshTimerExpiry =>
    cases h
    split
    · split
      next ho => exact ⟨hs.corrected, hs.uncorrectable, hs.lost, hs.correction, ho, hs.patrol⟩
      next => exact (loseRefresh_dramBounded hs).congr rfl
    · exact hs
  case refreshEnd =>
    cases h
    split
    · exact hs
    · dsimp only
      split
      · exact (hs.trickle _).congr rfl
      · exact beginEntry_dramBounded (s := { s with dram := _ }) (hs.trickle _)
    · exact beginEntry_dramBounded (s := { s with dram := _ }) (hs.paid _)
    · exact hs.paid _
  case selfRefreshEntered =>
    cases h
    have hd := sleepDram_dramBounded hs
    split
    · split
      · exact hd.congr (by simp)
      · exact hd.congr (by simp)
      · exact hs
    · exact hs
  case selfRefreshExit =>
    cases h
    have hw := wakeDram_dramBounded (same (pass_counts (1 - s.dram.residency) s))
    split
    · dsimp only
      split
      · exact hw
      · exact hw.congr (by simp)
      · exact hw.congr (by simp)
      · exact hw
    · exact hs
  case dozeCommitPoint =>
    cases h
    split
    · exact requestEntry_dramBounded _ hs
    · exact hs
  case drainEnd =>
    cases h
    split
    · exact requestEntry_dramBounded _ hs
    · exact hs
  case mirrorWriteComplete =>
    cases h
    split
    next q w _ _ =>
      split
      · exact carried q rfl
      · exact hs
    next => exact hs
  case partRequestGrantEnd =>
    cases h
    split
    next q _ =>
      split
      · exact burnReadNext_dramBounded _ q hs
      · exact carried q rfl
    next q _ =>
      split
      · split
        · exact carried q (by simp [State.mirrorNext])
        · exact hs
      · exact hs
    next =>
      split
      next p i k q _ =>
        split
        · exact carried q (by simp [State.fillNext])
        · exact hs
      next => exact hs
  all_goals
    cases h
    try dsimp only
    try (repeat' split)
  all_goals exact same (by simp [State.beginUrgent_eq, burnTakes_counts])

end DramCounts
end Sys2Proof.Machine

namespace Sys2Proof.Machine
open Sys2Proof Sys2Proof.Machine Sys2Proof.Machine.Claims

/-! ## The port queues, the burn results and the quiet count (R95, R110, R170) -/

/-- The port queues, the burn results and the quiet count lie in their ranges. -/
structure State.ListsBounded (s : State) : Prop where
  queue : ∀ p, (s.ports.get p).queue.length ≤ 4
  results : s.img.results.length ≤ 8
  count : s.quiet.count ≤ 65535

/-- The port queues, the burn results and the quiet count, together. -/
def State.lists (s : State) : (List Request × List Request) × List BurnResult × Nat :=
  ((s.ports.svp.queue, s.ports.mnp.queue), s.img.results, s.quiet.count)

section Lists

variable {s t : State}

theorem State.ListsBounded.congr (h : s.ListsBounded) (hl : t.lists = s.lists) : t.ListsBounded := by
  simp only [State.lists, Prod.mk.injEq] at hl
  obtain ⟨⟨hs, hm⟩, hr, hc⟩ := hl
  refine ⟨fun p => ?_, hr ▸ h.results, hc ▸ h.count⟩
  have hq := h.queue p
  cases p
  · exact by simpa [PerPort.get, hs] using hq
  · exact by simpa [PerPort.get, hm] using hq

/-! ### Operations that leave them -/

@[simp] theorem set_queue (f : PerPort PortState) (p : Port) (x : PortState) (h : x.queue = (f.get p).queue) :
    (f.set p x).svp.queue = f.svp.queue ∧ (f.set p x).mnp.queue = f.mnp.queue := by
  cases p <;> simpa [PerPort.set, PerPort.get] using h

@[simp] theorem latchPayload_lists (p : Port) (s : State) :
    (s.latchPayload p).ports.svp.queue = s.ports.svp.queue ∧ (s.latchPayload p).ports.mnp.queue = s.ports.mnp.queue := by
  rcases State.latchPayload_cases p s with e | e <;> simp [e]

@[simp] theorem pass_lists (n : Nat) (s : State) :
    (s.pass n).img.results = s.img.results ∧ (s.pass n).quiet.count = s.quiet.count := by
  unfold State.pass
  split <;> exact ⟨rfl, rfl⟩

@[simp] theorem burnOffer_lists (b : Burn) (s : State) :
    (s.burnOffer b).img.results = s.img.results := by
  unfold State.burnOffer
  split <;> rfl

@[simp] theorem burnNext_lists (b : Burn) (s : State) :
    (s.burnNext b).img.results = s.img.results := by
  unfold State.burnNext
  (repeat' split) <;> simp

@[simp] theorem resumeBurn_lists (s : State) :
    (s.resumeBurn).img.results = s.img.results := by
  unfold State.resumeBurn
  (repeat' split) <;> simp

@[simp] theorem burnProgrammed_lists (b : Burn) (s : State) :
    (s.burnProgrammed b).img.results = s.img.results := by
  unfold State.burnProgrammed
  (repeat' split) <;> simp

@[simp] theorem burnRequeue_lists (b : Burn) (s : State) :
    (s.burnRequeue b).img.results = s.img.results := by
  rfl

@[simp] theorem stopBurn_lists (s : State) :
    (s.stopBurn).img.results = s.img.results := by
  unfold State.stopBurn State.awaitAborted
  (repeat' split) <;> rfl

@[simp] theorem takeImage_lists (p : Port) (s : State) :
    (s.takeImage p).img.results = s.img.results := by
  unfold State.takeImage
  split <;> simp

@[simp] theorem waitImage_lists (p : Port) (s : State) :
    (s.waitImage p).ports.svp.queue = s.ports.svp.queue ∧ (s.waitImage p).ports.mnp.queue = s.ports.mnp.queue ∧ (s.waitImage p).img.results = s.img.results := by
  unfold State.waitImage
  split <;> simp

@[simp] theorem offerPortRead_lists (p : Port) (word len : Nat) (s : State) :
    (s.offerPortRead p word len).ports.svp.queue = s.ports.svp.queue ∧ (s.offerPortRead p word len).ports.mnp.queue = s.ports.mnp.queue := by
  simp [State.offerPortRead]

@[simp] theorem startStore_lists (p : Port) (i : SlotId) (word : Nat) (s : State) :
    (s.startStore p i word).ports.svp.queue = s.ports.svp.queue ∧ (s.startStore p i word).ports.mnp.queue = s.ports.mnp.queue := by
  simp [State.startStore]

@[simp] theorem startFill_lists (p : Port) (i : SlotId) (b : Nat) (s : State) :
    (s.startFill p i b).ports.svp.queue = s.ports.svp.queue ∧ (s.startFill p i b).ports.mnp.queue = s.ports.mnp.queue ∧ (s.startFill p i b).img.results = s.img.results := by
  simp [State.startFill]

@[simp] theorem portDram_lists (p : Port) (c : Carry) (q : DramReq) (s : State) :
    (s.portDram p c q).ports.svp.queue = s.ports.svp.queue ∧ (s.portDram p c q).ports.mnp.queue = s.ports.mnp.queue := by
  simp [State.portDram]

@[simp] theorem fillNext_lists (p : Port) (i : SlotId) (k : Nat) (q : DramReq) (s : State) :
    (s.fillNext p i k q).ports.svp.queue = s.ports.svp.queue ∧ (s.fillNext p i k q).ports.mnp.queue = s.ports.mnp.queue := by
  simp [State.fillNext]

@[simp] theorem enterSettling_lists (s : State) :
    (s.enterSettling).ports.svp.queue = s.ports.svp.queue ∧ (s.enterSettling).ports.mnp.queue = s.ports.mnp.queue ∧
      (s.enterSettling).img.results = s.img.results ∧ (s.enterSettling).quiet.count = s.quiet.count := by
  unfold State.enterSettling
  try dsimp only
  simp

@[simp] theorem enterRun_lists (s : State) :
    (s.enterRun).ports.svp.queue = s.ports.svp.queue ∧ (s.enterRun).ports.mnp.queue = s.ports.mnp.queue ∧
      (s.enterRun).img.results = s.img.results ∧ (s.enterRun).quiet.count = s.quiet.count := by
  unfold State.enterRun
  try dsimp only
  simp

@[simp] theorem enterPfDrain_lists (s : State) :
    (s.enterPfDrain).ports.svp.queue = s.ports.svp.queue ∧ (s.enterPfDrain).ports.mnp.queue = s.ports.mnp.queue ∧
      (s.enterPfDrain).img.results = s.img.results ∧ (s.enterPfDrain).quiet.count = s.quiet.count := by
  unfold State.enterPfDrain
  try dsimp only
  simp

@[simp] theorem enterByLpreq_lists (s : State) :
    (s.enterByLpreq).ports.svp.queue = s.ports.svp.queue ∧ (s.enterByLpreq).ports.mnp.queue = s.ports.mnp.queue ∧
      (s.enterByLpreq).img.results = s.img.results ∧ (s.enterByLpreq).quiet.count = s.quiet.count := by
  unfold State.enterByLpreq
  try dsimp only
  (repeat' split) <;> simp

@[simp] theorem leaveDoze_lists (s : State) :
    (s.leaveDoze).ports.svp.queue = s.ports.svp.queue ∧ (s.leaveDoze).ports.mnp.queue = s.ports.mnp.queue ∧
      (s.leaveDoze).img.results = s.img.results ∧ (s.leaveDoze).quiet.count = s.quiet.count := by
  unfold State.leaveDoze
  try dsimp only
  (repeat' split) <;> simp

@[simp] theorem leavePfHalt_lists (s : State) :
    (s.leavePfHalt).ports.svp.queue = s.ports.svp.queue ∧ (s.leavePfHalt).ports.mnp.queue = s.ports.mnp.queue ∧
      (s.leavePfHalt).img.results = s.img.results ∧ (s.leavePfHalt).quiet.count = s.quiet.count := by
  unfold State.leavePfHalt
  try dsimp only
  (repeat' split) <;> simp

@[simp] theorem leaveStarting_lists (s : State) :
    (s.leaveStarting).ports.svp.queue = s.ports.svp.queue ∧ (s.leaveStarting).ports.mnp.queue = s.ports.mnp.queue ∧
      (s.leaveStarting).img.results = s.img.results ∧ (s.leaveStarting).quiet.count = s.quiet.count := by
  unfold State.leaveStarting
  try dsimp only
  (repeat' split) <;> simp

@[simp] theorem openPhase_lists (s : State) :
    (s.openPhase).ports.svp.queue = s.ports.svp.queue ∧ (s.openPhase).ports.mnp.queue = s.ports.mnp.queue ∧
      (s.openPhase).img.results = s.img.results ∧ (s.openPhase).quiet.count = s.quiet.count := by
  unfold State.openPhase
  try dsimp only
  simp

@[simp] theorem recoverAfter_lists (c : ClassId) (s : State) :
    (s.recoverAfter c).ports.svp.queue = s.ports.svp.queue ∧ (s.recoverAfter c).ports.mnp.queue = s.ports.mnp.queue ∧
      (s.recoverAfter c).img.results = s.img.results ∧ (s.recoverAfter c).quiet.count = s.quiet.count := by
  unfold State.recoverAfter
  try dsimp only
  (repeat' split) <;> simp

@[simp] theorem beginRecovery_lists (s : State) :
    (s.beginRecovery).ports.svp.queue = s.ports.svp.queue ∧ (s.beginRecovery).ports.mnp.queue = s.ports.mnp.queue ∧
      (s.beginRecovery).img.results = s.img.results ∧ (s.beginRecovery).quiet.count = s.quiet.count := by
  unfold State.beginRecovery
  try dsimp only
  (repeat' split) <;> simp

@[simp] theorem recoverSlot_lists (c : ClassId) (q : Seq) (accepted : Bool) (s : State) :
    (s.recoverSlot c q accepted).ports.svp.queue = s.ports.svp.queue ∧ (s.recoverSlot c q accepted).ports.mnp.queue = s.ports.mnp.queue ∧
      (s.recoverSlot c q accepted).img.results = s.img.results ∧ (s.recoverSlot c q accepted).quiet.count = s.quiet.count := by
  unfold State.recoverSlot
  try dsimp only
  (repeat' split) <;> simp

@[simp] theorem endMount_lists (s : State) :
    (s.endMount).ports.svp.queue = s.ports.svp.queue ∧ (s.endMount).ports.mnp.queue = s.ports.mnp.queue ∧
      (s.endMount).img.results = s.img.results ∧ (s.endMount).quiet.count = s.quiet.count := by
  unfold State.endMount
  try dsimp only
  simp

@[simp] theorem growRun_lists (s : State) :
    (s.growRun).ports.svp.queue = s.ports.svp.queue ∧ (s.growRun).ports.mnp.queue = s.ports.mnp.queue ∧
      (s.growRun).img.results = s.img.results ∧ (s.growRun).quiet.count = s.quiet.count := by
  unfold State.growRun
  try dsimp only
  (repeat' split) <;> simp

@[simp] theorem mountPagesDone_lists (s : State) :
    (s.mountPagesDone).ports.svp.queue = s.ports.svp.queue ∧ (s.mountPagesDone).ports.mnp.queue = s.ports.mnp.queue ∧
      (s.mountPagesDone).img.results = s.img.results ∧ (s.mountPagesDone).quiet.count = s.quiet.count := by
  unfold State.mountPagesDone
  try dsimp only
  (repeat' split) <;> simp

@[simp] theorem mountPage_lists (block page : Nat) (k : PageClass) (s : State) :
    (s.mountPage block page k).ports.svp.queue = s.ports.svp.queue ∧ (s.mountPage block page k).ports.mnp.queue = s.ports.mnp.queue ∧
      (s.mountPage block page k).img.results = s.img.results ∧ (s.mountPage block page k).quiet.count = s.quiet.count := by
  unfold State.mountPage
  try dsimp only
  (repeat' split) <;> simp

@[simp] theorem mountRead_lists (block page : Nat) (k : PageClass) (s : State) :
    (s.mountRead block page k).ports.svp.queue = s.ports.svp.queue ∧ (s.mountRead block page k).ports.mnp.queue = s.ports.mnp.queue ∧
      (s.mountRead block page k).img.results = s.img.results ∧ (s.mountRead block page k).quiet.count = s.quiet.count := by
  unfold State.mountRead
  try dsimp only
  (repeat' split) <;> simp

@[simp] theorem mountChecked_lists (blank : Bool) (s : State) :
    (s.mountChecked blank).ports.svp.queue = s.ports.svp.queue ∧ (s.mountChecked blank).ports.mnp.queue = s.ports.mnp.queue ∧
      (s.mountChecked blank).img.results = s.img.results ∧ (s.mountChecked blank).quiet.count = s.quiet.count := by
  unfold State.mountChecked
  try dsimp only
  (repeat' split) <;> simp

@[simp] theorem startChecked_lists (block : Nat) (blank : Bool) (s : State) :
    (s.startChecked block blank).ports.svp.queue = s.ports.svp.queue ∧ (s.startChecked block blank).ports.mnp.queue = s.ports.mnp.queue ∧
      (s.startChecked block blank).img.results = s.img.results ∧ (s.startChecked block blank).quiet.count = s.quiet.count := by
  unfold State.startChecked
  try dsimp only
  (repeat' split) <;> simp

/-! ### Operations that write them -/

theorem unstall_length (a : Bool) (x : PortState) (h : x.queue.length ≤ 4) : (x.unstall a).queue.length ≤ 4 := by
  unfold PortState.unstall
  split
  · split
    next hc =>
      have hl : x.queue.length < 4 := by simp_all
      simp
      omega
    next => exact h
  · exact h

theorem unstallAll_length (x : PortState) (h : x.queue.length ≤ 4) : x.unstallAll.queue.length ≤ 4 :=
  unstall_length _ _ (unstall_length _ _ (unstall_length _ _ (unstall_length _ _ h)))

theorem arrive_length (a : Bool) (r : Request) (x : PortState) (h : x.queue.length ≤ 4) : (x.arrive a r).queue.length ≤ 4 := by
  unfold PortState.arrive
  split
  next hc =>
    have hl : x.queue.length < 4 := by simp_all
    simp
    omega
  next => exact h

theorem setPort_listsBounded (p : Port) (x : PortState) (h : s.ListsBounded) (hx : x.queue.length ≤ 4) :
    (s.setPort p x).ListsBounded := by
  refine ⟨fun q => ?_, h.results, h.count⟩
  by_cases e : q = p
  · subst e
    simpa using hx
  · simpa [PerPort.get_set_ne _ _ _ _ e] using h.queue q

theorem answer_listsBounded (p : Port) (a : Response) (h : s.ListsBounded) : (s.answer p a).ListsBounded :=
  setPort_listsBounded p _ h (unstall_length _ _ (by simpa using Nat.le_trans (Nat.sub_le _ 1) (h.queue p)))

theorem refuseNow_listsBounded (p : Port) (x : Reason) (h : s.ListsBounded) : (s.refuseNow p x).ListsBounded :=
  answer_listsBounded p _ (h.congr (by simp [State.lists]))

theorem burnResult_listsBounded (i : SlotId) (block code : Nat) (sum : Sum16) (h : s.ListsBounded) :
    (s.burnResult i block code sum).ListsBounded := by
  refine ⟨by simpa using h.queue, ?_, by simpa using h.count⟩
  simp [State.burnResult] <;> omega

theorem burnEnd_listsBounded (b : Burn) (code : Nat) (sum : Sum16) (h : s.ListsBounded) : (s.burnEnd b code sum).ListsBounded :=
  burnResult_listsBounded _ _ _ _ (s := { s with img.burn := none }) (h.congr rfl)

theorem burnStep2_listsBounded (b : Burn) (words : List Word) (h : s.ListsBounded) : (s.burnStep2 b words).ListsBounded := by
  unfold State.burnStep2
  split
  · exact burnEnd_listsBounded _ _ _ h
  · split
    · exact h.congr (by simp [State.lists])
    · exact burnEnd_listsBounded _ _ _ h

theorem burnRead_listsBounded (b : Burn) (words : List Word) (h : s.ListsBounded) : (s.burnRead b words).ListsBounded := by
  unfold State.burnRead
  split
  · exact burnStep2_listsBounded _ _ h
  · exact h.congr (by simp [State.lists])

theorem burnBlanked_listsBounded (b : Burn) (blank : Bool) (h : s.ListsBounded) : (s.burnBlanked b blank).ListsBounded := by
  unfold State.burnBlanked
  split
  · exact h.congr (by simp [State.lists])
  · split
    · exact burnEnd_listsBounded _ _ _ h
    · split
      · exact burnEnd_listsBounded _ _ _ h
      · exact h.congr (by simp [State.lists])

theorem burnVerified_listsBounded (b : Burn) (matched : Bool) (sum : Sum16) (h : s.ListsBounded) :
    (s.burnVerified b matched sum).ListsBounded := by
  unfold State.burnVerified
  dsimp only
  split
  · split
    · exact h.congr (by simp [State.lists])
    · split
      · exact burnEnd_listsBounded _ _ _ h
      · exact burnEnd_listsBounded _ _ _ (h.congr (by simp [State.lists]))
  · exact h

theorem burnStep1_listsBounded (b : Burn) (h : s.ListsBounded) : (s.burnStep1 b).ListsBounded := by
  unfold State.burnStep1
  split
  · exact burnEnd_listsBounded _ _ _ h
  · exact h.congr (by simp [State.lists])

theorem fetched_listsBounded (b : Burn) (bad : Bool) (words : List Word) (h : s.ListsBounded) : (s.fetched b bad words).ListsBounded := by
  unfold State.fetched
  split
  · exact h.congr rfl
  · split
    · exact burnEnd_listsBounded _ _ _ h
    · split <;> exact h.congr rfl

theorem burnReadNext_lists (b : Burn) (q : DramReq) (s : State) : (s.burnReadNext b q).img.results = s.img.results := by
  unfold State.burnReadNext
  dsimp only
  (repeat' split) <;> simp

theorem burnTakes_listsBounded {f : Burn → State → State} (h : s.ListsBounded) (hf : ∀ b, (f b s).ListsBounded) :
    (s.burnTakes f).ListsBounded := State.burnTakes_ind (P := State.ListsBounded) h (fun _ => h.congr rfl) (fun b _ => hf b)

theorem timedOut_listsBounded (j : Job) (h : s.ListsBounded) : (s.timedOut j).ListsBounded := by
  have hc : (s.cutOff j).finishJob.ListsBounded := h.congr (by simp [State.lists])
  unfold State.timedOut
  dsimp only
  split
  · exact hc.congr (by simp [State.lists])
  · exact hc.congr (by simp [State.lists])
  · exact burnTakes_listsBounded hc (fun b => burnEnd_listsBounded b _ _ hc)

/-! ### Records complete: the quiet count falls to 0 or stays -/

theorem complete_count_le (p : Port) (c : ClassId) (kind : Byte) (urgent : Bool) (payload : List Word) (s : State) :
    (s.complete p c kind urgent payload).quiet.count ≤ s.quiet.count := by
  rw [State.complete_eq]
  simp only [completed]
  split <;> simp

theorem openRecord_count_le (p : Port) (c : ClassId) (whole : Bool) (w : Word) (s : State) :
    (s.openRecord p c whole w).2.quiet.count ≤ s.quiet.count := by
  unfold State.openRecord
  dsimp only
  (repeat' split)
  all_goals first | exact Nat.le_trans (complete_count_le _ _ _ _ _ _) (Nat.le_of_eq (by simp)) | simp

theorem putPayload_count_le (p : Port) (c : ClassId) (k : Nat) (whole : Bool) (w : Word) (s : State) :
    (s.putPayload p c k whole w).2.quiet.count ≤ s.quiet.count := by
  unfold State.putPayload
  split
  · dsimp only
    split
    · exact complete_count_le _ _ _ _ _ _
    · exact Nat.le_refl _
  · exact Nat.le_refl _
  · exact Nat.le_refl _

theorem journalWord_count_le (p : Port) (c : ClassId) (k : Nat) (whole : Bool) (w : Word) (s : State) :
    (s.journalWord p c k whole w).2.quiet.count ≤ s.quiet.count := by
  unfold State.journalWord
  split
  · exact openRecord_count_le p c whole w s
  · split
    · exact putPayload_count_le p c k whole w s
    · exact Nat.le_refl _

theorem journalWords_count_le (p : Port) (c : ClassId) (k : Nat) (ws : List Word) (s : State) :
    (State.journalWords p c k ws s).2.quiet.count ≤ s.quiet.count := by
  induction ws generalizing k s with
  | nil => exact Nat.le_refl _
  | cons w ws ih =>
    have hw := journalWord_count_le p c k true w s
    unfold State.journalWords
    split
    next u e => exact Nat.le_trans (ih _ _) (by simpa [e] using hw)
    next x u e => simpa [e] using hw

theorem journalAnswer_listsBounded (p : Port) (x : Option Reason × State) (h : s.ListsBounded) (hp : x.2.ports = s.ports)
    (hi : x.2.img = s.img) (hq : x.2.quiet.count ≤ s.quiet.count) : (State.journalAnswer p x).ListsBounded :=
  answer_listsBounded p _ ⟨by simpa [hp] using h.queue, by simpa [hi] using h.results, Nat.le_trans hq h.count⟩

/-! ### Resets -/

theorem restart_listsBounded : s.restart.ListsBounded :=
  ⟨fun p => by cases p <;> exact Nat.zero_le 4, Nat.zero_le 8, Nat.zero_le _⟩

theorem powerReset_listsBounded (x : Supply) : (s.powerReset x).ListsBounded :=
  ⟨fun p => by cases p <;> exact Nat.zero_le 4, Nat.zero_le 8, Nat.zero_le _⟩

theorem beginStartUp_listsBounded (strap : Bool) (h : s.ListsBounded) : (s.beginStartUp strap).ListsBounded :=
  ⟨fun p => by cases p with | svp => exact unstallAll_length _ (h.queue .svp) | mnp => exact unstallAll_length _ (h.queue .mnp), h.results, h.count⟩

/-! ### Ends of DRAM grants -/

theorem plainEnd_listsBounded (p : Port) (q : DramReq) (h : s.ListsBounded) : (s.plainEnd p q).ListsBounded :=
  answer_listsBounded p _ (h.congr (by simp [State.lists]))

theorem ackEnd_listsBounded (p : Port) (q : DramReq) (h : s.ListsBounded) : (s.ackEnd p q).ListsBounded :=
  answer_listsBounded p _ (h.congr (by simp [State.lists]))

@[simp] theorem stored_results (m : Image) (i : SlotId) (last : Bool) : (m.stored i last).results = m.results := by
  unfold Image.stored
  split
  · split <;> rfl
  · rfl

theorem storeEnd_listsBounded (p : Port) (i : SlotId) (q : DramReq) (h : s.ListsBounded) : (s.storeEnd p i q).ListsBounded := by
  unfold State.storeEnd
  dsimp only
  split <;> exact answer_listsBounded p _ (h.congr (by simp [State.lists]))

theorem portGrantEnd_listsBounded (p : Port) (h : s.ListsBounded) : (s.portGrantEnd p).ListsBounded := by
  unfold State.portGrantEnd
  split
  · exact plainEnd_listsBounded p _ h
  · exact ackEnd_listsBounded p _ h
  · exact storeEnd_listsBounded p _ _ h
  · exact h

/-! ### Image accesses -/

theorem imageWriteAt_listsBounded (p : Port) (b word : Nat) (h : s.ListsBounded) : (s.imageWriteAt p b word).ListsBounded := by
  unfold State.imageWriteAt
  split
  · split
    · exact h.congr (by simp [State.lists])
    · exact answer_listsBounded p _ h
  · split
    · exact answer_listsBounded p _ h
    · split
      · exact h.congr (by simp [State.lists])
      · exact answer_listsBounded p _ h

theorem imageReadAt_listsBounded (p : Port) (b word len : Nat) (h : s.ListsBounded) : (s.imageReadAt p b word len).ListsBounded := by
  unfold State.imageReadAt
  split <;> exact h.congr (by simp [State.lists])

theorem rearmFor_listsBounded (p : Port) (h : s.ListsBounded) : (s.rearmFor p).ListsBounded := by
  cases p
  · exact ⟨h.queue, h.results, Nat.zero_le _⟩
  · exact h

/-- Every command keeps the port queues, the burn results and the quiet count in their ranges. -/
theorem exec_listsBounded {c : Instr} (h : exec c s = .next t) (hs : s.ListsBounded) : t.ListsBounded := by
  have same {u : State} (hu : u.lists = s.lists) : u.ListsBounded := hs.congr hu
  cases c
  case portRequestArrival r =>
    simp only [exec, execPortRequestArrival] at h
    have ha := setPort_listsBounded r.port ((s.ports.get r.port).arrive s.accepting r) hs (arrive_length _ _ _ (hs.queue _))
    (repeat' split at h) <;> cases h
    · exact ha.congr (by simp [State.lists])
    · exact ha
  case arbiterChoice =>
    simp only [exec, execArbiterChoice] at h
    (repeat' split at h) <;> cases h <;> exact same (by simp [State.lists])
  case programEnd ds =>
    simp only [exec, execProgramEnd] at h
    (repeat' split at h) <;> cases h
    · exact same (by simp [State.lists])
    · exact burnTakes_listsBounded (same (by simp [State.lists])) (fun b => same (by simp [State.lists]))
    · exact hs
  case eraseEnd ds =>
    simp only [exec, execEraseEnd] at h
    (repeat' split at h) <;> cases h
    · exact same (by simp [State.lists])
    · exact burnTakes_listsBounded (same (by simp [State.lists])) (fun b => same (by simp [State.lists]))
    · exact hs
  case powerOn => cases h; exact powerReset_listsBounded _
  case powerLoss => cases h; exact powerReset_listsBounded _
  case restartAsserted =>
    cases h
    split
    · exact restart_listsBounded
    · exact hs
  case restartReleased strap =>
    cases h
    split
    · exact beginStartUp_listsBounded strap hs
    · exact hs
  case powerOnResetEnd strap =>
    cases h
    split
    · exact beginStartUp_listsBounded strap hs
    · exact hs
  case openingWord p =>
    cases h
    split
    · exact journalAnswer_listsBounded (s := s.take p) p _ (same (by simp [State.lists])) (by simp) (by simp) (openRecord_count_le _ _ _ _ _)
    · exact hs
  case payloadWord p =>
    cases h
    split
    · exact journalAnswer_listsBounded (s := s.take p) p _ (same (by simp [State.lists])) (by simp) (by simp) (putPayload_count_le _ _ _ _ _ _)
    · exact hs
  case journalBurst p =>
    cases h
    split
    · exact journalAnswer_listsBounded (s := s.take p) p _ (same (by simp [State.lists])) (by simp) (by simp) (journalWords_count_le _ _ _ _ _)
    · exact hs
  case directionRefusal | nowindow | powerGatingRefusal | portOrSplitRefusal | mirrorWriteRefusal | journalOffsetRangeRefusal =>
    cases h
    split
    · exact refuseNow_listsBounded _ _ hs
    · exact hs
  case acknowledgeWrite p =>
    cases h
    split
    · exact ackEnd_listsBounded p _ hs
    · split
      · exact same (by simp [State.lists])
      · exact hs
  case portDramGrantEnd =>
    cases h
    split
    · exact portGrantEnd_listsBounded _ hs
    · exact portGrantEnd_listsBounded _ hs
    · exact hs
  case quietExpiry =>
    cases h
    split
    · split
      next r _ _ => exact ⟨by simpa using (same (u := (s.pass r).latchPayload .svp) (by simp [State.lists])).queue,
          by simpa using hs.results, by simp [saturate] <;> omega⟩
      · exact hs
    · exact hs
  case readJobEnd =>
    cases h
    split
    next p word len _ => exact (answer_listsBounded p (.done (flashWords s.flash.cells word len)) hs).congr (by simp [State.lists, State.portReadEnd])
    · exact same (by simp [State.lists])
    · exact same (by simp [State.lists])
    · exact same (by simp [State.lists])
    · exact hs
  case blankCheckEnd =>
    cases h
    split
    · split <;> exact same (by simp [State.lists])
    · exact burnTakes_listsBounded (same (by simp [State.lists])) (fun b => burnBlanked_listsBounded b _ (same (by simp [State.lists])))
    · exact same (by simp [State.lists])
    · exact hs
  case verifyEnd =>
    cases h
    split
    · exact same (by simp [State.lists])
    · exact burnTakes_listsBounded (same (by simp [State.lists])) (fun b => burnVerified_listsBounded b _ _ (same (by simp [State.lists])))
    · exact hs
  case flashTimeout =>
    cases h
    split
    · split
      · exact timedOut_listsBounded _ (same (by simp [State.lists]))
      · exact hs
    · exact hs
  case eraseAbortEnd =>
    cases h
    split
    · dsimp only
      split
      · exact burnTakes_listsBounded (same (by simp [State.lists])) (fun b => same (by simp [State.lists]))
      · exact same (by simp [State.lists])
    · exact hs
  case imageRead p =>
    cases h
    split
    · split
      · exact same (by simp [State.lists])
      · exact imageReadAt_listsBounded p _ _ _ (same (by simp [State.lists]))
    · exact hs
  case imageWrite p =>
    cases h
    split
    · split
      · exact same (by simp [State.lists])
      · exact imageWriteAt_listsBounded p _ _ (same (by simp [State.lists]))
    · exact hs
  case slotFillComplete =>
    cases h
    split
    · exact storeEnd_listsBounded _ _ _ hs
    · exact hs
  case imageIdleExpiry i =>
    cases h
    split
    · split
      · exact burnResult_listsBounded _ _ _ _ (same (by simp [State.lists]))
      · exact hs
    · exact hs
  case burnStart =>
    cases h
    split
    · split
      · split
        · exact burnStep1_listsBounded _ (same rfl)
        · exact hs
      · exact hs
    · exact hs
  case burnShadowReadComplete =>
    cases h
    split
    · split
      · dsimp only
        split
        · exact burnEnd_listsBounded _ _ _ (same (by simp [State.lists]))
        · split
          · exact burnRead_listsBounded _ _ (same (by simp [State.lists]))
          · exact hs
      · exact hs
    · exact hs
  case sourceFetchComplete =>
    cases h
    split
    · split
      · dsimp only
        split
        · exact fetched_listsBounded _ _ _ (same (by simp [State.lists]))
        · exact hs
      · exact hs
    · exact hs
  all_goals
    cases h
    try dsimp only
    try (repeat' split)
  all_goals exact same (by simp [State.lists, State.beginUrgent_eq, burnReadNext_lists])

end Lists

/-! ## All the ranges together -/

theorem State.bounded_iff (s : State) : s.bounded = true ↔
    s.boxed (fun o l => o.length ≤ 8 ∧ l ≤ 65535) ∧ s.com.bounded ∧ s.dram.Bounded ∧ s.ListsBounded := by
  simp only [State.bounded, Bool.and_eq_true, decide_eq_true_eq, State.boxed, Commit.bounded]
  constructor
  · rintro ⟨⟨⟨⟨⟨⟨⟨⟨⟨⟨⟨⟨⟨ho, hl⟩, hb⟩, hk⟩, hr⟩, hv⟩, hm⟩, hc⟩, hu⟩, hf⟩, hq⟩, hw⟩, hp⟩, hn⟩
    exact ⟨⟨ho, hl⟩, ⟨hb, hk⟩, ⟨hc, hu, hf, hq, hw, hp⟩, fun p => by cases p with | svp => exact hv | mnp => exact hm, hr, hn⟩
  · rintro ⟨⟨ho, hl⟩, ⟨hb, hk⟩, ⟨hc, hu, hf, hq, hw, hp⟩, hx, hr, hn⟩
    exact ⟨⟨⟨⟨⟨⟨⟨⟨⟨⟨⟨⟨⟨ho, hl⟩, hb⟩, hk⟩, hr⟩, hx .svp⟩, hx .mnp⟩, hc⟩, hu⟩, hf⟩, hq⟩, hw⟩, hp⟩, hn⟩

/-- The moves of the outbox keep it at eight records and the LOST count at 65535 at most (R31, R34). -/
theorem outboxClosed_range : OutboxClosed (fun o l => o.length ≤ 8 ∧ l ≤ 65535) where
  offer o l r h ho := ⟨by simp; omega, h.2⟩
  lose o l h ho := ⟨h.1, Nat.min_le_left _ _⟩
  merge o l h := by rwa [mergeLoss_length]
  depart o l r r' h := by
    have hl : o.length + 1 ≤ 8 := by simpa using h.1
    split <;> simp <;> omega
  front o l r h ho := ⟨by simp; omega, h.2⟩
  frontLose o l r h ho := ⟨by simp <;> omega, Nat.min_le_left _ _⟩
  empty := by simp

/-- Settles O7: each group of ranges is kept by a millisecond and by every command. -/
theorem stepKeepsCountsBounded : Obligations.StepKeepsCountsBounded := by
  unfold Obligations.StepKeepsCountsBounded
  intro s t hb h
  refine step_induct (P := fun u => u.bounded = true) h hb (fun _ => id) (fun hs => ?_) (fun c u hu he => ?_)
  · obtain ⟨ho, hc, hd, hl⟩ := (State.bounded_iff s).mp hs
    exact (State.bounded_iff _).mpr ⟨State.boxed_stg ho (by simp), pass_bounded 1 hc, hd.congr (by simp), hl.congr (by simp [State.lists])⟩
  · obtain ⟨ho, hc, hd, hl⟩ := (State.bounded_iff u).mp hu
    exact (State.bounded_iff t).mpr ⟨exec_boxed outboxClosed_range he ho, exec_commitBounded he hc, exec_dramBounded he hd,
      exec_listsBounded he hl⟩

end Sys2Proof.Machine

/-! PROOFS. The step and reset; the ports: arrival, gating, lookup, refusals, the requests presented (R109 to R122). -/

namespace Sys2Proof.Machine
open Sys2Proof Sys2Proof.Machine Sys2Proof.Machine.Claims

/-! ## The step, reset -/

/-- Settles O1. -/
theorem stepRunsFrontCommand : Obligations.StepRunsFrontCommand := by
  unfold Obligations.StepRunsFrontCommand
  intro c rest s
  rfl

/-- Settles O4. -/
theorem resetValues : Obligations.ResetValues := by
  unfold Obligations.ResetValues
  have ports {P : Port → Prop} (hs : P .svp) (hm : P .mnp) (p : Port) : P p := by cases p <;> assumption
  have sources {P : Source → Prop} (h1 : P .stager) (h2 : P .svp) (h3 : P .mnp) (h4 : P .commit) (h5 : P .burn) (h6 : P .mirror)
      (r : Source) : P r := by cases r <;> assumption
  refine ⟨rfl, rfl, ports (by decide) (by decide), rfl, rfl, ports (by decide) (by decide), rfl, rfl, by decide, rfl, rfl, rfl, rfl, rfl,
    rfl, rfl, rfl, rfl, rfl, rfl, by decide, rfl, rfl, rfl, rfl, by decide, rfl, sources rfl rfl rfl rfl rfl rfl, rfl, rfl, rfl, rfl, rfl,
    rfl, rfl, rfl, rfl, rfl, rfl, rfl, by decide, rfl, rfl, rfl, rfl, rfl, by decide, rfl, rfl, rfl, rfl, rfl⟩

/-- Settles O5. -/
theorem resetSatisfiesInvariants : Obligations.ResetSatisfiesInvariants := by
  unfold Obligations.ResetSatisfiesInvariants
  exact ⟨by decide, by decide, by decide, by decide, by decide, by decide⟩

/-! ## Arrival (R110, R122) -/

theorem PortState.arrive_joins {a : Bool} {r : Request} {x : PortState} (ha : a = true) (hb : x.bus = []) (hl : x.queue.length < 4) :
    x.arrive a r = { x with queue := x.queue ++ [r] } := by
  simp [PortState.arrive, ha, hb, hl]

theorem PortState.arrive_stalls {a : Bool} {r : Request} {x : PortState} (h : a = false ∨ x.bus ≠ [] ∨ 4 ≤ x.queue.length) :
    x.arrive a r = { x with bus := x.bus ++ [r] } := by
  unfold PortState.arrive
  rw [if_neg]
  rcases h with h | h | h <;> simp_all

theorem State.accepting_iff (s : State) : s.accepting = true ↔ s.su.supply = .running := by simp [State.accepting]

theorem State.wake_doze {s : State} (cause : Nat) (h : s.pow.state = .doze) :
    s.wake cause = { s with pow := { s.pow with wakeCause := some (s.pow.wakeCause.getD cause) }, dram := { s.dram with exitReq := true } } := by
  simp [State.wake, h]

theorem State.wake_awake {s : State} (cause : Nat) (h : s.pow.state ≠ .doze) : s.wake cause = s := by simp [State.wake, h]

/-- Settles O10. -/
theorem arrivalJoinsOrStalls : Obligations.ArrivalJoinsOrStalls := by
  unfold Obligations.ArrivalJoinsOrStalls
  intro s r
  refine ⟨fun hw => by simp [exec, execPortRequestArrival, hw], fun hw => ⟨fun hs hb hl => ?_, fun hn => ?_⟩⟩
  · have ha := PortState.arrive_joins (r := r) ((State.accepting_iff s).mpr hs) hb hl
    have he : exec (.portRequestArrival r) s = .next (if r.port = .mnp
        then ({ s with ports := s.ports.set r.port { s.ports.get r.port with queue := (s.ports.get r.port).queue ++ [r] } } : State).mnpJoined
        else { s with ports := s.ports.set r.port { s.ports.get r.port with queue := (s.ports.get r.port).queue ++ [r] } }) := by
      simp [exec, execPortRequestArrival, hw, ha, State.setPort]
    rw [he]
    refine ⟨fun hp => by simp [hp], fun hp hd => ?_, fun hp hd hz => ?_, fun hp hd hz => ?_⟩
    · simp [hp, State.mnpJoined, hd]
    · simp [hp, State.mnpJoined, hd, State.wake_awake, hz]
    · simp [hp, State.mnpJoined, hd, State.wake_doze, hz]
  · have ha : (s.ports.get r.port).arrive s.accepting r = { s.ports.get r.port with bus := (s.ports.get r.port).bus ++ [r] } :=
      PortState.arrive_stalls (hn.imp_left (fun h => by simpa [State.accepting] using h))
    simp [exec, execPortRequestArrival, hw, ha, State.setPort]

/-! ## The take of a current request (R110, R119) -/

section Take

variable {s : State} {p : Port} {r : Request} {rest : List Request}

/-- The power state holds or refuses a current request, or its window decides. -/
theorem taking_current (h : Current s p r rest) : s.taking p = s.dispatch p r := by
  obtain ⟨hs, hc, hq, -⟩ := h
  simp [State.taking, State.currentRequest, hs, hc, hq]

theorem taking_held (h : Current s p r rest) (hg : s.gate p = .hold) : s.taking p = .nothing := by
  rw [taking_current h, State.dispatch, hg]

theorem taking_gated (h : Current s p r rest) {x : Reason} (hg : s.gate p = .refuse x) : s.taking p = .gated x := by
  rw [taking_current h, State.dispatch, hg]

theorem taking_lookup (h : Current s p r rest) (hg : s.gate p = .serve) : s.taking p = lookup s.prof.windows r := by
  rw [taking_current h, State.dispatch, hg]

theorem front_current (h : Current s p r rest) : s.front p = r := front_cons s p r rest h.2.2.1

/-- A current request refused at its take leaves, and nothing else changes but the relapse timer. -/
theorem refuseNow_current (h : Current s p r rest) (x : Reason) : s.refuseNow p x = refusedAtOnce s p rest x := by
  obtain ⟨hs, -, hq, hl⟩ := h
  rw [State.refuseNow, State.answer_served p _ (s.take p) r rest (by simpa using hs) (by simpa using hq) hl, State.take_eq]
  rfl

/-- A request presented at its port's requester is carried, and nothing else changes but the relapse timer. -/
theorem portDram_eq (c : Carry) (q : DramReq) (s : State) : s.portDram p c q = presented s p c q := by
  rw [State.portDram, State.take_eq]
  rfl

/-! ### Gating (R119, R120, R156) -/

theorem gate_hold (h : s.pow.state = .doze ∨ s.dram.entryReq = some .doze) : s.gate p = .hold := by
  unfold State.gate
  split
  · rfl
  next hd => rw [h.resolve_right hd]

/-- No command takes a request that is held. -/
theorem exec_takes_held (h : Current s p r rest) (hg : s.gate p = .hold) (c : Instr) (hc : c ∈ takes p) : exec c s = .next s := by
  have ht := taking_held h hg
  have hi : s.imageTaking p = .nothing := by simp [State.imageTaking, h.2.1, ht]
  have hp (q : DramReq) : s.portGrant p ≠ some (.ack, q) := by
    unfold State.portGrant
    split
    · split <;> simp [h.2.1]
    · simp
  have hack : execAcknowledgeWrite p s = .next s := by
    unfold execAcknowledgeWrite
    split
    next q hq => exact absurd hq (hp q)
    next => simp [ht]
  simp only [takes, List.mem_cons, List.not_mem_nil, or_false] at hc
  rcases hc with rfl | rfl | rfl | rfl | rfl | rfl | rfl | rfl | rfl | rfl | rfl | rfl | rfl | rfl | rfl | rfl
  case inr.inr.inr.inl => exact hack
  all_goals
    simp only [exec, execPlainRead, execPlainWrite, execMirrorRead, execOpeningWord, execPayloadWord, execJournalBurst, execImageRead,
      execImageWrite, execFlashRead, execDirectionRefusal, execNowindow, execPowerGatingRefusal, execPortOrSplitRefusal,
      execMirrorWriteRefusal, execJournalOffsetRangeRefusal, ht, hi]

theorem gate_of_power (h : s.dram.entryReq ≠ some .doze) : s.gate p = match s.pow.state with
    | .starting => .refuse .notready
    | .run => if p = .svp ∧ s.svrst = true then .refuse .power else .serve
    | .settling | .roused => if p = .svp then .refuse .power else .serve
    | .doze => .hold
    | .pfDrain | .pfHalt => .refuse .power := by
  unfold State.gate State.svrst
  exact (if_neg h).trans (by cases s.pow.state <;> rfl)

/-- What the power state refuses at the take is answered at once. -/
theorem exec_gated (h : Current s p r rest) {x : Reason} (hg : s.gate p = .refuse x) :
    exec (.powerGatingRefusal p) s = .next (refusedAtOnce s p rest x) := by
  simp only [exec, execPowerGatingRefusal, taking_gated h hg, refuseNow_current h]

theorem dispatchIn_not_gated (w : Window) (o : Nat) (r : Request) (x : Reason) : dispatchIn w o r ≠ .gated x := by
  unfold dispatchIn
  split <;> (repeat' split) <;> simp

theorem lookup_not_gated (ws : List Window) (r : Request) (x : Reason) : lookup ws r ≠ .gated x := by
  unfold lookup
  dsimp only
  (repeat' split)
  all_goals first | exact dispatchIn_not_gated _ _ _ _ | simp

/-- A request that passes gating is not refused by it. -/
theorem exec_not_gated (h : Current s p r rest) (hg : s.gate p = .serve) :
    s.taking p = lookup s.prof.windows r ∧ exec (.powerGatingRefusal p) s = .next s := by
  refine ⟨taking_lookup h hg, ?_⟩
  simp only [exec, execPowerGatingRefusal, taking_lookup h hg]
  split
  next x e => exact absurd e (lookup_not_gated _ _ _)
  next => rfl

end Take

/-- Settles O11. -/
theorem gatingFollowsPowerState : Obligations.GatingFollowsPowerState := by
  unfold Obligations.GatingFollowsPowerState
  intro s p r rest h
  refine ⟨fun hd c hc => exec_takes_held h (gate_hold hd) c hc, fun hd => ⟨fun hp => ?_, fun hp hv hr => ?_, fun hp hv => ?_,
    fun hp => ?_, fun hp => ?_⟩⟩
  · exact exec_gated h (by rw [gate_of_power hd, hp])
  · exact exec_gated h (by rw [gate_of_power hd, hp]; simp [hv, hr])
  · exact exec_gated h (by rw [gate_of_power hd]; rcases hp with hp | hp <;> simp [hp, hv])
  · exact exec_gated h (by rw [gate_of_power hd]; rcases hp with hp | hp <;> simp [hp])
  · refine exec_not_gated h ?_
    rw [gate_of_power hd]
    rcases hp with ⟨hp, rfl | hv⟩ | ⟨hp | hp, rfl⟩ <;> simp [*]

/-! ## Lookup and dispatch (R114 to R116) -/

theorem findWindow_none_iff (ws : List Window) (a : Nat) :
    findWindow ws a = none ↔ ∀ w ∈ ws, w.valid = true → ¬ (w.base ≤ a ∧ a < w.base + w.size) := by
  simp only [findWindow, List.find?_eq_none, Bool.and_eq_true, decide_eq_true_eq, not_and]
  exact ⟨fun h w hw hv hb => h w hw ⟨hv, hb⟩, fun h w hw hv => h w hw hv.1 hv.2⟩

theorem findWindow_some {ws : List Window} {a : Nat} {w : Window} (h : findWindow ws a = some w) :
    w ∈ ws ∧ w.valid = true ∧ w.base ≤ a ∧ a < w.base + w.size := by
  have hp := List.find?_some h
  simp only [Bool.and_eq_true, decide_eq_true_eq] at hp
  exact ⟨List.mem_of_find?_eq_some h, hp.1.1, hp.1.2, hp.2⟩

theorem dispatchIn_ne_nowindow (w : Window) (o : Nat) (r : Request) : dispatchIn w o r ≠ .nowindow := by
  unfold dispatchIn
  split <;> (repeat' split) <;> simp

theorem lookup_nowindow_iff (ws : List Window) (r : Request) : lookup ws r = .nowindow ↔ findWindow ws r.addr.toNat = none := by
  unfold lookup
  dsimp only
  split
  next h => simp [h]
  next w h =>
    rw [h]
    (repeat' split) <;> simp [dispatchIn_ne_nowindow]

/-- Settles O12. -/
theorem lookupAndDispatchFollowTheTables : Obligations.LookupAndDispatchFollowTheTables := by
  unfold Obligations.LookupAndDispatchFollowTheTables
  refine ⟨fun ws r => ⟨(lookup_nowindow_iff ws r).trans (findWindow_none_iff ws _), fun w hw => ⟨findWindow_some hw, ?_, ?_, ?_, ?_⟩⟩,
    fun w o r => ⟨?_, ?_, ?_, ?_, ?_, ?_, ?_, ?_, ?_, ?_, ?_, ?_, ?_⟩⟩
  · intro ha
    simp [lookup, hw, ha]
  · intro ha hl
    simp [lookup, hw, ha, hl]
  · intro ha hl hk hp
    simp [lookup, hw, ha, Nat.not_lt.mpr hl, hk, hp]
  · intro ha hl hk
    have hi : ¬ (w.kind = .image ∧ 4096 < (r.addr.toNat - w.base) % 4096 + 4 * r.len) := fun h => absurd (hk h.1) (by omega)
    simp [lookup, hw, ha, Nat.not_lt.mpr hl, hi]
  all_goals
    intro hk
    simp only [dispatchIn, hk]
  · intro hr
    simp [hr]
  · intro hr hl
    simp [hr, hl]
  · intro hr hl ho
    simp [hr, hl, ho]
  · intro hr hl ho hm
    simp [hr, hl, hm, show ¬ o / 4 = 0 by omega]
  · intro hr hl ho
    simp [hr, hl, show ¬ o / 4 = 0 by omega, show ¬ o / 4 ≤ 12 by omega]
  · intro hr
    simp [hr]
  · intro hr hl
    simp [hr, hl]
  · intro hr hl ho he
    simp [hr, hl, ho, wholeWord_eq_false r he]
  · intro hr hl ho he
    simp [hr, hl, ho, wholeWord_eq_true r he]

/-- Settles O13. -/
theorem refusalsAnsweredAtOnce : Obligations.RefusalsAnsweredAtOnce := by
  unfold Obligations.RefusalsAnsweredAtOnce
  intro s p r rest h hg
  have ht := taking_lookup h hg
  refine ⟨fun hl => ?_, fun x hl => ?_, fun hl => ?_, fun x hl => ?_, fun hl => ?_⟩ <;> rw [hl] at ht
  · simp only [exec, execNowindow, ht, refuseNow_current h]
  · simp only [exec, execPortOrSplitRefusal, ht, refuseNow_current h]
  · simp only [exec, execDirectionRefusal, ht, refuseNow_current h]
  · simp only [exec, execMirrorWriteRefusal, ht, refuseNow_current h]
  · simp only [exec, execJournalOffsetRangeRefusal, ht, refuseNow_current h]

theorem writeReq_partial {r : Request} (hl : r.len = 1) (he : r.enables ≠ 0xF#4) (off : Nat) :
    writeReq off r = .rmw off (wordAt r.data 0) r.enables := by
  simp [writeReq, partialWord, hl, wholeWord_eq_false r he]

theorem writeReq_whole {r : Request} (h : r.len ≠ 1 ∨ r.enables = 0xF#4) (off : Nat) : writeReq off r = .write off r.data := by
  rcases h with h | h
  · simp [writeReq, partialWord, h]
  · simp [writeReq, partialWord, wholeWord_eq_true r h]

/-- Settles O14. -/
theorem portAccessWaitsAtItsRequester : Obligations.PortAccessWaitsAtItsRequester := by
  unfold Obligations.PortAccessWaitsAtItsRequester
  intro s p r rest h hg
  have ht := taking_lookup h hg
  refine ⟨fun off hl => ?_, fun off hl h1 he => ?_, fun off hl h1 => ?_, fun off hl => ?_, fun off hl hn => ?_⟩ <;> rw [hl] at ht
  · simp only [exec, execPlainRead, ht, portDram_eq, front_current h]
  · simp only [exec, execPlainWrite, ht, portDram_eq, front_current h, writeReq_partial h1 he]
  · simp only [exec, execPlainWrite, ht, portDram_eq, front_current h, writeReq_whole h1]
  · simp only [exec, execMirrorRead, ht, portDram_eq, front_current h]
  · simp only [exec, execAcknowledgeWrite, hn, ht, portDram_eq, front_current h]

end Sys2Proof.Machine

/-! PROOFS. A millisecond (log 3, R17). -/

namespace Sys2Proof.Machine
open Sys2Proof Sys2Proof.Machine Sys2Proof.Machine.Claims

section Passing

variable {s : State}

theorem State.clockRuns_iff (s : State) :
    s.clockRuns = true ↔ s.su.supply = .running ∧ s.pow.state ≠ .doze ∧ s.pow.state ≠ .pfHalt := by
  simp [State.clockRuns, and_assoc]

theorem State.clockRuns_false (h : ¬ (s.su.supply = .running ∧ s.pow.state ≠ .doze ∧ s.pow.state ≠ .pfHalt)) : s.clockRuns = false := by
  rwa [← State.clockRuns_iff, Bool.not_eq_true] at h

/-- In RUN the clock runs. -/
theorem State.clockRuns_run (hs : s.su.supply = .running) (hr : s.pow.state = .run) : s.clockRuns = true := by
  simp [State.clockRuns, hs, hr]

/-- The relapse timer counts in every state that has the clock, but STARTING. -/
theorem relapseCounts_eq_true {x : PowerState} (hd : x ≠ .doze) (hh : x ≠ .pfHalt) (hs : x ≠ .starting) : x.relapseCounts = true := by
  cases x <;> first | rfl | contradiction

theorem passCtx_get (limit n : Nat) (f : Four (Option OpenCtx)) (c : ClassId) :
    (passCtx limit n f).get c = (f.get c).map (OpenCtx.pass limit n) := by
  simp [passCtx]

theorem pass_context (n : Nat) (hs : s.su.supply ≠ .off) (p : Port) (c : ClassId) :
    (s.pass n).context p c = if s.clockRuns = true then (s.context p c).map (OpenCtx.pass s.prof.assemblyLimit n) else s.context p c := by
  cases p <;> by_cases h : s.clockRuns = true <;> simp [State.context, State.pass, hs, h, PerPort.get, passCtx_get]

theorem FillBuf.pass_holds {f : FillBuf} (limit n : Nat) (h : f.recs ≠ []) :
    f.pass limit n = { f with flush := advance limit f.flush n } := by
  simp [FillBuf.pass, h]

theorem FillBuf.pass_empty {f : FillBuf} (limit n : Nat) (h : f.recs = []) : f.pass limit n = f := by
  simp [FillBuf.pass, h]

/-- A FILLING buffer without records does not count. -/
theorem pass_filling_empty {c : Commit} (limit n : Nat) (h : c.fillingHolds = false) :
    c.filling.map (FillBuf.pass limit n) = c.filling := by
  unfold Commit.fillingHolds at h
  cases hf : c.filling with
  | none => rfl
  | some f => simp [FillBuf.pass_empty limit n (f := f) (by simpa [hf] using h)]

theorem Running.pass_unlimited {r : Running} (n : Nat) (he : r.job.isErase = false)
    (hp : ∀ b p ws, r.job ≠ .pageProgram b p ∧ r.job ≠ .burnProgram b p ws) : r.pass n = r := by
  unfold Running.pass
  split
  next lim hl =>
    cases hj : r.job <;> simp [hj, Job.limit, Job.isErase] at hl he hp
  next => rfl

theorem Running.pass_erase {r : Running} (n : Nat) (he : r.job.isErase = true) : r.pass n = { r with time := advance 50 r.time n } := by
  unfold Running.pass
  cases hj : r.job <;> simp [hj, Job.isErase] at he <;> simp [Job.limit]

theorem Running.pass_program {r : Running} (n : Nat) (hp : ∃ b p ws, r.job = .pageProgram b p ∨ r.job = .burnProgram b p ws) :
    r.pass n = { r with time := advance 2 r.time n } := by
  obtain ⟨b, p, ws, h | h⟩ := hp <;> simp [Running.pass, h, Job.limit]

theorem SlotState.pass_idle {x : SlotState} (limit n : Nat) (h : ∀ b t, x ≠ .opened b t) : x.pass limit n = x := by
  cases x with
  | opened b t => exact absurd rfl (h b t)
  | _ => rfl

theorem passDebounce_get (cfg : Four ContactCfg) (n : Nat) (f : Four (Option Nat)) (i : Fin 4) :
    (passDebounce cfg n f).get i = (f.get i).map (fun t => advance (cfg.get i).debounce t n) := by
  simp [passDebounce]

end Passing

/-- Settles O3. -/
theorem idleStepIsOneMillisecond : Obligations.IdleStepIsOneMillisecond := by
  unfold Obligations.IdleStepIsOneMillisecond
  intro s hp hs clock run
  have hrun (h : run) : s.clockRuns = true := State.clockRuns_run h.1 h.2
  have still (h : ¬ clock) : s.clockRuns = false := State.clockRuns_false h
  have counts (h : clock) : s.clockRuns = true := (State.clockRuns_iff s).mpr h
  have idle (h : ¬ run) : (s.clockRuns && s.pow.state == .run) = false := by
    refine Bool.eq_false_iff.mpr fun hc => ?_
    simp only [Bool.and_eq_true, beq_iff_eq] at hc
    exact h ⟨((State.clockRuns_iff s).mp hc.1).1, hc.2⟩
  refine ⟨s.pass 1, by simp [step, hp], by simp [State.pass, hs], by simp [State.pass, hs], fun hc hst => ?_, fun hc => ?_, fun hd => ?_,
    fun hd => ?_, fun hr => ?_, fun hr => ?_, by simp [State.pass, hs, advance], fun p c => ⟨fun hc => ?_, fun hc => ?_⟩,
    fun f hc hf he => ?_, fun hc => ?_, fun r hr => ⟨fun hc he => ?_, fun hc he => ?_, fun he hn => ?_⟩, fun hc => ?_,
    fun i => ⟨fun b x hr hi => ?_, fun hc => ?_⟩, fun i => ?_, by simp [State.pass, hs, advance]⟩
  · simp [State.pass, hs, counts hc, relapseCounts_eq_true hc.2.1 hc.2.2 hst, advance]
  · rcases hc with hc | hc
    · simp [State.pass, hs, still hc]
    · simp [State.pass, hs, hc, PowerState.relapseCounts]
  · simp [State.pass, hs, hd, advance]
  · simp [State.pass, hs, hd]
  · simp [State.pass, hs, hrun hr, hr.2]
  · simp [State.pass, hs, idle hr]
  · rw [pass_context 1 hs, if_pos (counts hc)]
    rfl
  · simp [pass_context 1 hs, still hc]
  · simp [State.pass, hs, counts hc, he, FillBuf.pass_holds _ _ hf, advance]
  · by_cases h : s.clockRuns = true
    · have hf := hc.resolve_left (fun hn => by simp [still hn] at h)
      simp [State.pass, hs, h, pass_filling_empty _ _ hf]
    · simp [State.pass, hs, h]
  · simp [State.pass, hs, counts hc, hr, Running.pass_erase 1 he, advance]
  · simp [State.pass, hs, counts hc, hr, Running.pass_program 1 he, advance]
  · simp [State.pass, hs, hr, Running.pass_unlimited 1 he hn]
  · by_cases h : s.clockRuns = true
    · have hf := hc.resolve_left (fun hn => by simp [still hn] at h)
      simp [State.pass, hs, hf]
    · simp [State.pass, hs, h]
  · simp [State.pass, hs, hrun hr, hr.2, hi, SlotState.pass, advance]
  · by_cases h : run
    · simp [State.pass, hs, hrun h, h.2, SlotState.pass_idle _ _ (hc.resolve_left (fun hn => hn h))]
    · simp [State.pass, hs, idle h]
  · simp [State.pass, hs, passDebounce_get, advance]

end Sys2Proof.Machine

/-! PROOFS. What reports leave of a state: the attention causes kept, one record offered; what a DRAM read leaves (R31, R34, R132, R136,
R176). -/

namespace Sys2Proof.Machine
open Sys2Proof Sys2Proof.Machine Sys2Proof.Machine.Claims

/-! ## Attention causes and offered records -/

section Reports

variable {s t u : State} {r : Record} {as bs cs : List Cause}

theorem causesKept_of_eq (h : t.mir.attention = s.mir.attention) : CausesKept s t cs := fun c _ => by rw [h]

theorem Claims.CausesKept.mono (h : CausesKept s t as) (hs : ∀ c ∈ as, c ∈ cs) : CausesKept s t cs := fun c hc => h c (fun ha => hc (hs c ha))

theorem Claims.CausesKept.trans (h : CausesKept s u as) (k : CausesKept u t bs) (hs : ∀ c, c ∈ as ∨ c ∈ bs → c ∈ cs) : CausesKept s t cs :=
  fun c hc => (k c (fun hb => hc (hs c (.inr hb)))).trans (h c (fun ha => hc (hs c (.inl ha))))

theorem raise_causesKept (c : Cause) (s : State) : CausesKept s (s.raise c) [c] := by
  intro d hd
  rw [State.raise_mir]
  exact Eight.get_set_ne _ _ _ _ (Cause.ix_ne d c (by simpa using hd))

theorem raise_waiting (c : Cause) (s : State) : (s.raise c).mir.attention.get c.ix = .waiting := by simp

/-- A cause raised before the record was offered. -/
theorem Claims.Offered.before (h : Offered u t r as) (ho : u.stg.outbox = s.stg.outbox) (hl : u.stg.lost = s.stg.lost) (hk : CausesKept s u bs)
    (hs : ∀ c, c ∈ as ∨ c ∈ bs → c ∈ cs) : Offered s t r cs := by
  obtain ⟨room, full⟩ := h
  rw [ho, hl] at room full
  refine ⟨fun hr => ?_, fun hf => ?_⟩
  · obtain ⟨h1, h2, h3⟩ := room hr
    exact ⟨h1, h2, hk.trans h3 (fun c hc => hs c hc.symm)⟩
  · obtain ⟨h1, h2, h3, h4⟩ := full hf
    refine ⟨h1, h2, h3, hk.trans h4 (fun c hc => ?_)⟩
    rcases hc with hc | hc
    · exact List.mem_cons_of_mem _ (hs c (.inr hc))
    · rcases List.mem_cons.mp hc with hc | hc
      · exact List.mem_cons.mpr (.inl hc)
      · exact List.mem_cons_of_mem _ (hs c (.inl hc))

/-- A cause raised after the record was offered. -/
theorem Claims.Offered.after (h : Offered s u r as) (ho : t.stg.outbox = u.stg.outbox) (hl : t.stg.lost = u.stg.lost) (hk : CausesKept u t bs)
    (hn : Cause.lost ∉ bs) (hs : ∀ c, c ∈ as ∨ c ∈ bs → c ∈ cs) : Offered s t r cs := by
  obtain ⟨room, full⟩ := h
  refine ⟨fun hr => ?_, fun hf => ?_⟩
  · obtain ⟨h1, h2, h3⟩ := room hr
    exact ⟨ho.trans h1, hl.trans h2, h3.trans hk hs⟩
  · obtain ⟨h1, h2, h3, h4⟩ := full hf
    refine ⟨ho.trans h1, hl.trans h2, (hk .lost hn).trans h3, h4.trans hk (fun c hc => ?_)⟩
    rcases hc with hc | hc
    · rcases List.mem_cons.mp hc with hc | hc
      · exact List.mem_cons.mpr (.inl hc)
      · exact List.mem_cons_of_mem _ (hs c (.inl hc))
    · exact List.mem_cons_of_mem _ (hs c (.inr hc))

/-- An offered record raises no cause but LOST. -/
theorem Claims.Offered.causesKept (h : Offered s t r as) : CausesKept s t (.lost :: as) := by
  by_cases hl : s.stg.outbox.length < 8
  · exact (h.1 hl).2.2.mono (fun c hc => List.mem_cons_of_mem _ hc)
  · exact (h.2 (Nat.le_of_not_lt hl)).2.2.2

theorem offerNow_eq (kind : Byte) (urgent : Bool) (payload : List Word) (s : State) :
    s.offerNow kind urgent payload = { s with
      stg := { s.stg with outbox := (s.offerNow kind urgent payload).stg.outbox, lost := (s.offerNow kind urgent payload).stg.lost }
      mir := { s.mir with dirty := true, attention := (s.offerNow kind urgent payload).mir.attention } } := State.offer_eq _ s

theorem offerNow_offered (kind : Byte) (urgent : Bool) (payload : List Word) (s : State) :
    Offered s (s.offerNow kind urgent payload) (partRecord kind urgent s.stamp payload) := State.offer_offered _ s

/-- A record offered leaves the causes that wait. -/
theorem offer_waiting {c : Cause} (r : Record) (h : s.mir.attention.get c.ix = .waiting) :
    (s.offer r).mir.attention.get c.ix = .waiting := by
  by_cases hc : c = .lost
  · subst hc
    by_cases hl : s.stg.outbox.length < 8
    · rw [State.offer_room r s hl]
      exact h
    · rw [State.offer_full r s (Nat.le_of_not_lt hl)]
      exact raise_waiting .lost _
  · rw [(State.offer_offered r s).causesKept c (by simpa using hc), h]

end Reports

/-! ## What a DRAM read leaves -/

section EccReads

variable {s : State}

theorem offerCorrection_eq (q : List Nat) (off : Nat) : offerCorrection q off = if off ∈ q ∨ 4 ≤ q.length then q else q ++ [off] := by
  by_cases hm : off ∈ q
  · simp [offerCorrection, hm]
  · by_cases hl : q.length < 4
    · simp [offerCorrection, hm, hl]
    · simp [offerCorrection, hm, hl, Nat.le_of_not_lt hl]

theorem correctionsAfter_eq (q : List Nat) (rs : List (Nat × EccResult)) : correctionsAfter q rs =
    rs.foldl (fun q x => match x.2 with | .corrected _ => offerCorrection q x.1 | _ => q) q := by
  unfold correctionsAfter
  congr
  funext q x
  obtain ⟨off, e⟩ := x
  cases e
  case corrected w => exact (offerCorrection_eq q off).symm
  all_goals rfl

theorem eccRead_correctionsAfter (offers : Bool) (rs : List (Nat × EccResult)) (s : State) :
    (State.eccRead offers rs s).dram.correction = if offers then correctionsAfter s.dram.correction rs else s.dram.correction := by
  rw [correctionsAfter_eq]
  exact eccRead_correction offers rs s

theorem eccRead_causesKept (offers : Bool) (rs : List (Nat × EccResult)) (s : State) : CausesKept s (State.eccRead offers rs s) [.fault] := by
  unfold State.eccRead
  induction rs generalizing s with
  | nil => exact causesKept_of_eq rfl
  | cons x rs ih =>
    refine CausesKept.trans (u := State.eccWord offers s x) (as := [.fault]) (bs := [.fault]) ?_ (ih _) (by simp)
    unfold State.eccWord
    split
    · exact causesKept_of_eq rfl
    · exact causesKept_of_eq rfl
    · exact raise_causesKept .fault { s with dram.uncorrectable := saturate 65535 s.dram.uncorrectable 1 }

/-- All that a read with no Uncorrectable word does (R132, R133). -/
theorem eccRead_of_usable (offers : Bool) {rs : List (Nat × EccResult)} (s : State) (h : ∀ x ∈ rs, x.2.bad = false) :
    ∃ n d, State.eccRead offers rs s = { s with
        dram := { s.dram with
          corrected := n, correction := if offers then correctionsAfter s.dram.correction rs else s.dram.correction }
        mir := { s.mir with dirty := d } } ∧
      (s.dram.corrected ≤ 65535 → n = min 65535 (s.dram.corrected + correctedCount rs)) := by
  obtain ⟨he, hc, -⟩ := eccRead_usable offers rs s h
  refine ⟨_, (State.eccRead offers rs s).mir.dirty, ?_, hc⟩
  rw [eccRead_correctionsAfter] at he
  exact he

/-- All that a read with an Uncorrectable word does (R132, R133, R136). -/
theorem eccRead_of_bad (offers : Bool) {rs : List (Nat × EccResult)} (s : State) (h : ∃ x ∈ rs, x.2.bad = true) :
    ∃ n m a, State.eccRead offers rs s = { s with
        dram := { s.dram with
          corrected := n, uncorrectable := m
          correction := if offers then correctionsAfter s.dram.correction rs else s.dram.correction }
        mir := { s.mir with dirty := true, attention := a } } ∧
      (s.dram.corrected ≤ 65535 → n = min 65535 (s.dram.corrected + correctedCount rs)) ∧
      (s.dram.uncorrectable ≤ 65535 → m = min 65535 (s.dram.uncorrectable + badCount rs)) ∧
      a.get Cause.fault.ix = .waiting ∧ ∀ c : Cause, c ≠ .fault → a.get c.ix = s.mir.attention.get c.ix := by
  obtain ⟨he, hu, hf⟩ := eccRead_any offers rs s
  obtain ⟨hw, hd⟩ := hf (.inr h)
  refine ⟨_, _, (State.eccRead offers rs s).mir.attention, ?_, eccRead_corrected offers rs s, hu, hw, fun c hc => eccRead_causesKept offers rs s c (by simpa using hc)⟩
  rw [eccRead_correctionsAfter, hd] at he
  exact he

theorem bad_cases (rs : List (Nat × EccResult)) : (∀ x ∈ rs, x.2.bad = false) ∨ ∃ x ∈ rs, x.2.bad = true := by
  by_cases h : ∃ x ∈ rs, x.2.bad = true
  · exact .inr h
  · exact .inl (fun x hx => Bool.eq_false_iff.mpr (fun hb => h ⟨x, hx, hb⟩))

theorem faultRecord_usable (requester : Nat) {rs : List (Nat × EccResult)} (s : State) (h : ∀ x ∈ rs, x.2.bad = false) :
    s.faultRecord requester rs = s := by
  simp [State.faultRecord, firstBad_none rs h]

theorem faultRecord_bad (requester : Nat) {rs : List (Nat × EccResult)} (s : State) (h : ∃ x ∈ rs, x.2.bad = true) :
    ∃ off syn, firstBad rs = some (off, syn) ∧
      s.faultRecord requester rs = s.offerNow 0xF2#8 false [numWord (off * 4), numWord requester, numWord syn.toNat] := by
  obtain ⟨off, syn, hf⟩ := firstBad_some rs h
  exact ⟨off, syn, hf, by simp [State.faultRecord, hf, State.offerDramFault]⟩

/-- The read and its DRAM-FAULT record (R132, R133, R136): all that the two do. -/
theorem faultRecord_eccRead_of_bad (offers : Bool) (requester : Nat) {rs : List (Nat × EccResult)} (s : State)
    (h : ∃ x ∈ rs, x.2.bad = true) :
    ∃ n m a o l, (State.eccRead offers rs s).faultRecord requester rs = { s with
        stg := { s.stg with outbox := o, lost := l }
        dram := { s.dram with
          corrected := n, uncorrectable := m
          correction := if offers then correctionsAfter s.dram.correction rs else s.dram.correction }
        mir := { s.mir with dirty := true, attention := a } } ∧
      (s.dram.corrected ≤ 65535 → n = min 65535 (s.dram.corrected + correctedCount rs)) ∧
      (s.dram.uncorrectable ≤ 65535 → m = min 65535 (s.dram.uncorrectable + badCount rs)) ∧
      a.get Cause.fault.ix = .waiting ∧
      ∃ off syn, firstBad rs = some (off, syn) ∧ Offered s ((State.eccRead offers rs s).faultRecord requester rs)
        (partRecord 0xF2#8 false s.stamp [BitVec.ofNat 32 (off * 4), BitVec.ofNat 32 requester, BitVec.ofNat 32 syn.toNat]) [.fault] := by
  obtain ⟨n, m, a, he, hn, hm, ha, hk⟩ := eccRead_of_bad offers s h
  obtain ⟨off, syn, hf, hr⟩ := faultRecord_bad requester (State.eccRead offers rs s) h
  have ho := offerNow_offered 0xF2#8 false [numWord (off * 4), numWord requester, numWord syn.toNat] (State.eccRead offers rs s)
  have hs := offerNow_eq 0xF2#8 false [numWord (off * 4), numWord requester, numWord syn.toNat] (State.eccRead offers rs s)
  have hw := offer_waiting (c := .fault) (partRecord 0xF2#8 false (State.eccRead offers rs s).stamp
    [numWord (off * 4), numWord requester, numWord syn.toNat]) (s := State.eccRead offers rs s) (by rw [he]; exact ha)
  rw [← hr] at ho hs
  refine ⟨n, m, ((State.eccRead offers rs s).faultRecord requester rs).mir.attention, ((State.eccRead offers rs s).faultRecord requester rs).stg.outbox,
    ((State.eccRead offers rs s).faultRecord requester rs).stg.lost, ?_, hn, hm, ?_, off, syn, hf, ?_⟩
  rotate_left
  · rw [hr]
    exact hw
  · have hst : (State.eccRead offers rs s).stamp = s.stamp := by rw [he]; rfl
    rw [hst] at ho
    exact ho.before (by rw [he]) (by rw [he]) (eccRead_causesKept offers rs s) (by simp)
  · refine hs.trans ?_
    rw [he]

end EccReads
end Sys2Proof.Machine

/-! PROOFS. The end of a port's grant: the answer of a plain access, the acknowledge word (R116, R117, R132, R135, R136, R177). -/

namespace Sys2Proof.Machine
open Sys2Proof Sys2Proof.Machine Sys2Proof.Machine.Claims

/-! ## The end of a grant outside a self-refresh entry -/

/-- A read neither looks at the grant in progress nor changes it. -/
theorem eccRead_grant (offers : Bool) (rs : List (Nat × EccResult)) (g : Option Grant) (s : State) :
    State.eccRead offers rs { s with dram.grant := g } = { State.eccRead offers rs s with dram.grant := g } := by
  unfold State.eccRead
  induction rs generalizing s with
  | nil => rfl
  | cons x rs ih =>
    obtain ⟨off, e⟩ := x
    rw [List.foldl_cons, List.foldl_cons, ← ih]
    cases e <;> rfl

/-- A request carried out whose grant ends, while no self-refresh entry goes on: its words are read, and the device is free. -/
theorem carried_eq {s : State} (q : DramReq) (h : s.dram.entryReq = none ∨ s.stg.queue ≠ []) : (s.carryOut q).endGrant =
    State.eccRead (!q.isRmw) (readsOf s.dram.cells q) { s with dram := { s.dram with cells := cellsAfter s.dram.cells q, grant := none } } := by
  rw [endGrant_frees _ (h.imp (fun h => by simpa using h) (fun h => by simpa using h)), State.carryOut, ← eccRead_grant]

/-- A port's plain access ends: the words read take effect, a DRAM-FAULT record follows an Uncorrectable one, and the port is answered. -/
theorem plainEnd_carried {s : State} {p : Port} {r : Request} {rest : List Request} {c : Carry} (h : Carried s p c r rest)
    (he : s.dram.entryReq = none) (q : DramReq) : s.plainEnd p q =
      { (State.eccRead (!q.isRmw) (readsOf s.dram.cells q) { s with dram := { s.dram with
          cells := cellsAfter s.dram.cells q, grant := none } }).faultRecord (portCode p) (readsOf s.dram.cells q) with
        ports := answered s p rest (dramAnswer r.write (readsOf s.dram.cells q)) } := by
  obtain ⟨hs, -, hq, hl⟩ := h
  simp only [State.plainEnd]
  rw [State.answer_served p _ _ r rest (by simpa using hs) (by simpa using hq) hl, carried_eq q (.inl he), front_cons s p r rest hq]
  simp [answered]

/-- The end of the grant of a plain access, as a command. -/
theorem portDramGrantEnd_plain {s : State} {p : Port} {r : Request} {rest : List Request} (h : Carried s p .plain r rest)
    {q : DramReq} (hg : s.dram.grant = some (.source (Source.ofPort p) q)) : exec .portDramGrantEnd s = .next (s.plainEnd p q) := by
  rw [execPortDramGrantEnd_port s p q hg, State.portGrantEnd, portGrant_source s p q hg, h.2.1]

theorem dramAnswer_read {rs : List (Nat × EccResult)} (h : ∀ x ∈ rs, x.2.bad = false) : dramAnswer false rs = .done (dataOf rs) := by
  simp [dramAnswer, anyBad_false rs h]

theorem dramAnswer_write {rs : List (Nat × EccResult)} (h : ∀ x ∈ rs, x.2.bad = false) : dramAnswer true rs = .done [] := by
  simp [dramAnswer, anyBad_false rs h]

theorem dramAnswer_bad (write : Bool) {rs : List (Nat × EccResult)} (h : ∃ x ∈ rs, x.2.bad = true) :
    dramAnswer write rs = .refused .fault := by
  simp [dramAnswer, anyBad_true rs h]

/-! ## Read-modify-writes (R135) -/

theorem readDram_one (cells : List (Nat × Code)) (off : Nat) :
    readDram cells off 1 = [(off, readCode (readCell dramDefault cells off))] := rfl

theorem cellsAfter_rmw_usable {cells : List (Nat × Code)} {off : Nat} (w : Word) (en : BitVec 4)
    (h : (readCode (readCell dramDefault cells off)).bad = false) : cellsAfter cells (.rmw off w en) =
      writeDram cells off [mergeWord (readCode (readCell dramDefault cells off)).word w en] := by
  cases hr : readCode (readCell dramDefault cells off) <;> simp [cellsAfter, hr, EccResult.bad] at h ⊢

theorem cellsAfter_rmw_bad {cells : List (Nat × Code)} {off : Nat} (w : Word) (en : BitVec 4)
    (h : (readCode (readCell dramDefault cells off)).bad = true) : cellsAfter cells (.rmw off w en) = cells := by
  cases hr : readCode (readCell dramDefault cells off) <;> simp [cellsAfter, hr, EccResult.bad] at h ⊢

/-- A plain read ends. -/
theorem plainRead_ends {s : State} {p : Port} {r : Request} {rest : List Request} (h : Carried s p .plain r rest) (hw : r.write = false)
    (he : s.dram.entryReq = none) (off len : Nat) : s.plainEnd p (.read off len) =
      { (State.eccRead true (readDram s.dram.cells off len) { s with dram := { s.dram with grant := none } }).faultRecord (portCode p)
          (readDram s.dram.cells off len) with
        ports := answered s p rest (dramAnswer false (readDram s.dram.cells off len)) } := by
  rw [plainEnd_carried h he, hw]
  rfl

/-- A whole-word write ends: it reads nothing. -/
theorem plainWrite_ends {s : State} {p : Port} {r : Request} {rest : List Request} (h : Carried s p .plain r rest) (hw : r.write = true)
    (he : s.dram.entryReq = none) (off : Nat) (ws : List Word) : s.plainEnd p (.write off ws) =
      { s with ports := answered s p rest (.done []), dram := { s.dram with cells := writeDram s.dram.cells off ws, grant := none } } := by
  rw [plainEnd_carried h he, hw]
  rfl

/-- A read-modify-write ends. -/
theorem plainRmw_ends {s : State} {p : Port} {r : Request} {rest : List Request} (h : Carried s p .plain r rest) (hw : r.write = true)
    (he : s.dram.entryReq = none) (off : Nat) (w : Word) (en : BitVec 4) : s.plainEnd p (.rmw off w en) =
      { (State.eccRead false (readDram s.dram.cells off 1) { s with dram := { s.dram with
          cells := cellsAfter s.dram.cells (.rmw off w en), grant := none } }).faultRecord (portCode p) (readDram s.dram.cells off 1) with
        ports := answered s p rest (dramAnswer true (readDram s.dram.cells off 1)) } := by
  rw [plainEnd_carried h he, hw]
  rfl

/-- Settles O15. -/
theorem portGrantEndAnswersThePort : Obligations.PortGrantEndAnswersThePort := by
  unfold Obligations.PortGrantEndAnswersThePort
  refine ⟨fun s p r rest off len h hw hg he => ?_, fun s p r rest h hw hm he => ⟨fun off ws hg => ?_, fun off w en hg => ?_⟩⟩
  · rw [portDramGrantEnd_plain h hg, plainRead_ends h hw he]
    refine ⟨fun hc => ?_, fun hu => ?_, fun hb => ?_⟩
    · have hu := clean_not_bad _ hc
      rw [eccRead_clean _ _ _ hc, faultRecord_usable _ _ hu, dramAnswer_read hu]
    · obtain ⟨n, d, ht, hn⟩ := eccRead_of_usable true (rs := readDram s.dram.cells off len) { s with dram.grant := none } hu
      refine ⟨_, rfl, ?_⟩
      rw [faultRecord_usable _ _ hu, dramAnswer_read hu, ht]
      exact ⟨rfl, hn⟩
    · obtain ⟨n, m, a, o, l, ht, hn, hu, ha, x, syn, hf, ho⟩ :=
        faultRecord_eccRead_of_bad true (portCode p) (rs := readDram s.dram.cells off len) { s with dram.grant := none } hb
      rw [dramAnswer_bad _ hb]
      rw [ht] at ho ⊢
      exact ⟨_, rfl, rfl, hn, hu, ha, x, syn, hf, ho⟩
  · obtain ⟨hm, -⟩ := (State.memoryWf_iff s).mp hm
    rw [portDramGrantEnd_plain h hg, plainWrite_ends h hw he]
    exact ⟨_, rfl, rfl, fun a => readCell_writeDram_inside _ off ws a hm, fun a => cellsAfter_outside _ (.write off ws) a⟩
  · obtain ⟨hm, -⟩ := (State.memoryWf_iff s).mp hm
    have outside (a : Nat) (ha : a ≠ off) := cellsAfter_outside s.dram.cells (.rmw off w en) a (by simp only [DramReq.span]; omega)
    rw [portDramGrantEnd_plain h hg, plainRmw_ends h hw he, readDram_one]
    refine ⟨_, rfl, by simpa using outside, fun hu => ?_, fun hb => ?_⟩
    · have hu' : ∀ x ∈ [(off, readCode (readCell dramDefault s.dram.cells off))], x.2.bad = false := by simpa using hu
      obtain ⟨n, d, ht, -⟩ := eccRead_of_usable false
        { s with dram := { s.dram with cells := cellsAfter s.dram.cells (.rmw off w en), grant := none } } hu'
      rw [faultRecord_usable _ _ hu', dramAnswer_write hu', ht]
      refine ⟨?_, rfl, rfl⟩
      dsimp only
      rw [cellsAfter_rmw_usable w en hu, readCell_writeDram_inside _ off _ off hm (Nat.le_refl _) (by simp)]
      simp [wordAt]
    · have hb' : ∃ x ∈ [(off, readCode (readCell dramDefault s.dram.cells off))], x.2.bad = true := by simpa using hb
      obtain ⟨n, m, a, o, l, ht, -, hu, ha, -⟩ := faultRecord_eccRead_of_bad false (portCode p)
        { s with dram := { s.dram with cells := cellsAfter s.dram.cells (.rmw off w en), grant := none } } hb'
      rw [dramAnswer_bad _ hb', ht]
      exact ⟨cellsAfter_rmw_bad w en hb, rfl, by simpa [badCount, hb] using hu, ha⟩

/-! ## The acknowledge word (R177) -/

theorem AttState.acked_waiting (g : Option Seq) : AttState.acked g .waiting = false := rfl

theorem Mirror.acked_recorded (m : Mirror) (n : Seq) :
    AttState.acked m.inProgress (.recorded n) = true ↔ m.write = none ∨ n ≠ m.gen := by
  cases hw : m.write <;> simp [AttState.acked, Mirror.inProgress, hw]
  exact ne_comm

theorem acknowledge_other {g : Word} {s : State} (h : s.mir.last ≠ some g) : State.acknowledge g s = s := by
  simp [State.acknowledge, h]

/-- The value of the last completed generation removes the causes recorded at a generation other than that in progress. -/
theorem acknowledge_last {g : Word} {s : State} (h : s.mir.last = some g) (i : Fin 8) :
    (State.acknowledge g s).mir.attention.get i =
      if (s.mir.attention.get i).acked s.mir.inProgress = true then .absent else s.mir.attention.get i := by
  simp only [State.acknowledge, h, if_true]
  split <;> simp [State.mark]

theorem acknowledge_dirty {g : Word} {s : State} (h : s.mir.last = some g) {i : Fin 8}
    (hi : (s.mir.attention.get i).acked s.mir.inProgress = true) : (State.acknowledge g s).mir.dirty = true := by
  have ha : s.mir.attention.toList.any (fun a => a.acked s.mir.inProgress) = true := List.any_eq_true.mpr ⟨_, Eight.get_mem_toList _ i, hi⟩
  simp [State.acknowledge, h, ha, State.mark]

theorem acknowledge_eq (g : Word) (s : State) : State.acknowledge g s = { s with mir := { s.mir with
    attention := (State.acknowledge g s).mir.attention, dirty := (State.acknowledge g s).mir.dirty } } := by
  unfold State.acknowledge
  dsimp only
  (repeat' split) <;> rfl

theorem acknowledge_withDram (g : Word) (d : Dram) (s : State) :
    State.acknowledge g { s with dram := d } = { State.acknowledge g s with dram := d } := by
  unfold State.acknowledge
  dsimp only
  (repeat' split) <;> rfl

/-- Settles O16. -/
theorem acknowledgeRemovesRecordedCauses : Obligations.AcknowledgeRemovesRecordedCauses := by
  unfold Obligations.AcknowledgeRemovesRecordedCauses
  intro s p r rest off g h hd hg hm he
  obtain ⟨hs, hc, hq, hl⟩ := h
  obtain ⟨hm, -⟩ := (State.memoryWf_iff s).mp hm
  have hp : s.portGrant p = some (.ack, .write off [g]) := by rw [portGrant_source s p _ hg, hc]
  have hend : s.ackEnd p (.write off [g]) = { State.acknowledge g s with
      ports := answered s p rest (.done [])
      dram := { s.dram with grant := none, cells := writeDram s.dram.cells off [g] } } := by
    simp only [State.ackEnd]
    rw [carried_eq _ (.inl he), State.answer_served p _ _ r rest (by simpa using hs) (by simpa using hq) hl, front_cons s p r rest hq, hd]
    change ({ State.acknowledge g { s with dram := _ } with ports := _ } : State) = _
    rw [acknowledge_withDram]
    simp [answered]
    rfl
  refine ⟨s.ackEnd p (.write off [g]), by simp only [exec, execAcknowledgeWrite, hp], ?_, ?_⟩
  · rw [execPortDramGrantEnd_port s p _ hg, State.portGrantEnd, hp]
  · rw [hend]
    refine ⟨?_, ?_, fun a ha => ?_, fun hn => ?_, fun hg i => ⟨fun hi => ?_, fun n hi hn => ⟨?_, ?_⟩, fun n hi hw hn => ?_⟩⟩
    · rw [acknowledge_eq]
    · simpa [wordAt] using readCell_writeDram_inside s.dram.cells off [g] off hm (Nat.le_refl _) (by simp)
    · exact cellsAfter_outside s.dram.cells (.write off [g]) a (by simp [DramReq.span]; omega)
    · rw [acknowledge_other hn]
    · simp [acknowledge_last hg, hi, AttState.acked_waiting]
    · simp [acknowledge_last hg, hi, (Mirror.acked_recorded s.mir n).mpr hn]
    · exact acknowledge_dirty hg (i := i) (by rw [hi]; exact (Mirror.acked_recorded s.mir n).mpr hn)
    · have hno : ¬ AttState.acked s.mir.inProgress (.recorded n) = true := by
        rw [Mirror.acked_recorded]
        exact fun hk => hk.elim hw (fun hk => hk hn)
      simp [acknowledge_last hg, hi, hno]

end Sys2Proof.Machine

/-! PROOFS. Assembly limits, ring writes, departures, stored slots (R13, R24, R25, R27, R32). -/

namespace Sys2Proof.Machine
open Sys2Proof Sys2Proof.Machine Sys2Proof.Machine.Claims

/-! ## The assembly limit (R13) -/

theorem OpenCtx.pass_to_limit (x : OpenCtx) {limit : Nat} (h : limit ≠ 0) :
    x.pass limit (limit - x.elapsed) = { x with elapsed := limit } := by
  simp only [OpenCtx.pass, if_neg h, advance]
  congr
  omega

/-- Settles O20. -/
theorem assemblyLimitAbandonsRecord : Obligations.AssemblyLimitAbandonsRecord := by
  unfold Obligations.AssemblyLimitAbandonsRecord
  intro s p c x hx
  refine ⟨fun hc hl => ?_, fun hl => by simp [exec, execAssemblyLimitExpiry, hx, hl]⟩
  have hs : s.su.supply ≠ .off := by simp [((State.clockRuns_iff s).mp hc).1]
  have hu : (s.pass (s.prof.assemblyLimit - x.elapsed)).context p c = some { x with elapsed := s.prof.assemblyLimit } := by
    rw [pass_context _ hs, if_pos hc, hx, Option.map_some, OpenCtx.pass_to_limit x hl]
  exact ⟨_, _, _, rfl, hu, rfl, State.abandon_abandoned p c causeLimit _ _ hu, by simp [exec, execAssemblyLimitExpiry, hx, hc, hl]⟩

/-! ## Ring writes and departures (R24, R25, R32) -/

theorem stagingOpen_of {s : State} (hs : s.su.supply = .running)
    (hp : s.pow.state = .run ∨ s.pow.state = .settling ∨ s.pow.state = .roused ∨ s.pow.state = .pfDrain) : s.stagingOpen = true := by
  rcases hp with hp | hp | hp | hp <;> simp [State.stagingOpen, State.clockRuns, PowerState.commits, hs, hp]

/-- Settles O21. -/
theorem ringWriteTakesNextSequence : Obligations.RingWriteTakesNextSequence := by
  unfold Obligations.RingWriteTakesNextSequence
  intro s e q hq hw hs hp
  simp [exec, execRingWriteStart, hq, stagingOpen_of hs hp, hw, State.present, State.slotWrite, State.slotOff]

/-- Settles O24. -/
theorem outboxDepartureJoinsRingQueue : Obligations.OutboxDepartureJoinsRingQueue := by
  unfold Obligations.OutboxDepartureJoinsRingQueue
  intro s r q ho hs hp
  have hopen := stagingOpen_of hs hp
  refine ⟨fun hu => by simp [exec, execOutboxDeparture, ho, hu], fun hu => ?_⟩
  have he : exec .outboxDeparture s = .next (s.depart r q) := by simp [exec, execOutboxDeparture, ho, hopen, hu]
  rw [he]
  by_cases hl : s.stg.lost = 0
  · simp [State.depart, State.reserve, State.setRing, State.lostRecord, reservedOne, hl]
  · simp [State.depart, State.reserve, State.setRing, State.lostRecord, reservedOne, hl, Nat.pos_of_ne_zero hl, State.stamp, numWord]

/-! ## Fields of a word (R192, R193) -/

theorem bits_ofNat (n lo k : Nat) : bits (BitVec.ofNat 32 n) lo k = n % 2 ^ 32 / 2 ^ lo % 2 ^ k := by
  rw [bits, BitVec.toNat_ofNat, Nat.shiftRight_eq_div_pow]

theorem bitAt_ofNat (n i : Nat) : bitAt (BitVec.ofNat 32 n) i = decide (n % 2 ^ 32 / 2 ^ i % 2 = 1) := by
  rw [bitAt, bits_ofNat]
  rfl

theorem extract_ofNat (n lo k : Nat) : (BitVec.ofNat 32 n).extractLsb' lo k = BitVec.ofNat k (n % 2 ^ 32 / 2 ^ lo) := by
  apply BitVec.eq_of_toNat_eq
  simp [Nat.shiftRight_eq_div_pow]

theorem field_eq (lo n v : Nat) : field lo n v = v % 2 ^ n * 2 ^ lo := Nat.shiftLeft_eq _ _

theorem flag_eq (lo : Nat) (b : Bool) : flag lo b = b.toNat * 2 ^ lo := by cases b <;> simp [flag]

/-! ### The stored opening word (R192) -/

section Opening

variable (r : Record)

/-- The opening word as a number below 2^19: kind, length, urgent, origin, the three time flags. -/
theorem openingOf_eq : openingOf r = BitVec.ofNat 32 (r.kind.toNat + r.payload.length % 16 * 256 + r.urgent.toNat * 4096 +
    r.origin.code % 4 * 8192 + r.stamp.unset.toNat * 65536 + r.stamp.coarse.toNat * 131072 + r.stamp.tset.toNat * 262144) := by
  simp only [openingOf, field_eq, flag_eq] <;> rfl

theorem kindOf_openingOf : kindOf (openingOf r) = r.kind := by
  have hk := r.kind.isLt
  have := Bool.toNat_le r.urgent
  have := Bool.toNat_le r.stamp.unset
  have := Bool.toNat_le r.stamp.coarse
  have := Bool.toNat_le r.stamp.tset
  rw [kindOf, openingOf_eq, extract_ofNat]
  apply BitVec.eq_of_toNat_eq
  rw [BitVec.toNat_ofNat]
  omega

theorem lengthOf_openingOf (h : r.payload.length ≤ 12) : lengthOf (openingOf r) = r.payload.length := by
  have hk := r.kind.isLt
  have := Bool.toNat_le r.urgent
  have := Bool.toNat_le r.stamp.unset
  have := Bool.toNat_le r.stamp.coarse
  have := Bool.toNat_le r.stamp.tset
  rw [lengthOf, openingOf_eq, bits_ofNat]
  omega

theorem urgentOf_openingOf : urgentOf (openingOf r) = r.urgent := by
  have hk := r.kind.isLt
  have := Bool.toNat_le r.stamp.unset
  have := Bool.toNat_le r.stamp.coarse
  have := Bool.toNat_le r.stamp.tset
  rw [urgentOf, openingOf_eq, bitAt_ofNat]
  cases r.urgent <;> simp only [Bool.toNat_true, Bool.toNat_false, decide_eq_true_eq, decide_eq_false_iff_not] <;> omega

end Opening

/-! ### A word with a check in its upper half (R27, R48) -/

/-- The upper half of a word that a check was put in gives the check. -/
theorem extract_checked (n : Nat) (h : n < 2 ^ 16) (c : Sum16) : (BitVec.ofNat 32 (n + field 16 16 c.toNat)).extractLsb' 16 16 = c := by
  have hc := c.isLt
  rw [extract_ofNat, field_eq]
  apply BitVec.eq_of_toNat_eq
  rw [BitVec.toNat_ofNat]
  omega

/-- The lower half of a word that a check was put in is as it was. -/
theorem wordBytes_checked (n : Nat) (h : n < 2 ^ 16) (c : Sum16) :
    (wordBytes (BitVec.ofNat 32 (n + field 16 16 c.toNat))).take 2 = (wordBytes (BitVec.ofNat 32 n)).take 2 := by
  have hc := c.isLt
  have low (lo : Nat) (hl : lo = 0 ∨ lo = 8) : BitVec.ofNat 8 ((n + field 16 16 c.toNat) % 2 ^ 32 / 2 ^ lo) = BitVec.ofNat 8 (n % 2 ^ 32 / 2 ^ lo) := by
    apply BitVec.eq_of_toNat_eq
    rw [BitVec.toNat_ofNat, BitVec.toNat_ofNat, field_eq]
    rcases hl with rfl | rfl <;> omega
  simp only [wordBytes, extract_ofNat, List.take_succ_cons, List.take_zero, low 0 (.inl rfl), low 8 (.inr rfl)]

/-! ### The stored slot (R27, R193) -/

section Slot

variable (r : Record) (q : Seq)

theorem time_high : r.stamp.time.toNat >>> 32 < 2 ^ 16 := by
  have ht := r.stamp.time.isLt
  rw [Nat.shiftRight_eq_div_pow]
  omega

theorem packRecord_length : (packRecord r q).length = 4 + r.payload.length := by
  simp [packRecord]
  omega

theorem packRecord_opening : wordAt (packRecord r q) 0 = openingOf r := rfl

theorem packRecord_seq : wordAt (packRecord r q) 1 = q := rfl

theorem packRecord_payload : (packRecord r q).drop 4 = r.payload := rfl

theorem wordAt_append_left {xs : List Word} (ys : List Word) {i : Nat} (h : i < xs.length) : wordAt (xs ++ ys) i = wordAt xs i := by
  simp [wordAt, List.getD, List.getElem?_append_left, h]

theorem slotWords_word {i : Nat} (h : i < 4) : wordAt (slotWords r q) i = wordAt (packRecord r q) i :=
  wordAt_append_left _ (by rw [packRecord_length]; omega)

variable (h : r.payload.length ≤ 12)
include h

theorem slotWords_eq : slotWords r q = packRecord r q ++ List.replicate (12 - r.payload.length) 0#32 := by
  simp only [slotWords, packRecord_length]
  congr 2
  omega

theorem slotWords_take : (slotWords r q).take (4 + r.payload.length) = packRecord r q := by
  rw [slotWords_eq r q h]
  exact List.take_left' (packRecord_length r q)

theorem slotWords_payload : ((slotWords r q).drop 4).take r.payload.length = r.payload := by
  rw [slotWords_eq r q h, List.drop_append_of_le_length (by rw [packRecord_length]; omega), packRecord_payload, List.take_left]

/-- The record check of a stored slot matches. -/
theorem recordCheckOk_slotWords : recordCheckOk (slotWords r q) = true := by
  have hlen : lengthOf (wordAt (slotWords r q) 0) = r.payload.length := by
    rw [slotWords_word r q (by omega), packRecord_opening, lengthOf_openingOf r h]
  rw [recordCheckOk, hlen, slotWords_payload r q h]
  simp only [beq_iff_eq, slotWords_word r q (show 0 < 4 by omega),
    slotWords_word r q (show 1 < 4 by omega), slotWords_word r q (show 2 < 4 by omega), slotWords_word r q (show 3 < 4 by omega)]
  simp only [packRecord, wordAt, List.cons_append, List.nil_append, List.getD_cons_succ, List.getD_cons_zero]
  rw [extract_checked _ (time_high r)]
  simp only [checkedBytes, wordBytes_checked _ (time_high r)]

end Slot

theorem damagedKind_of_recoverable {k : Byte} (h : recoverableKind k = true) : damagedKind k = false := by
  revert k
  decide

/-- Settles O22. -/
theorem storedSlotReadsBackIntact : Obligations.StoredSlotReadsBackIntact := by
  unfold Obligations.StoredSlotReadsBackIntact
  intro r q c rs hl hk hd hb
  have h0 : wordAt (slotWords r q) 0 = openingOf r := slotWords_word r q (by omega)
  have h1 : wordAt (slotWords r q) 1 = q := slotWords_word r q (by omega)
  refine ⟨?_, slotWords_take r q hl, ?_, ?_, ?_, ?_, fun q' hq => ⟨?_, ?_⟩⟩
  · rw [slotWords_eq r q hl, List.length_append, packRecord_length, List.length_replicate]
    omega
  · rw [slotWords_eq r q hl]
    exact List.drop_left' (packRecord_length r q)
  · simp [slotDamaged, hd, hb, h0, h1, kindOf_openingOf, lengthOf_openingOf r hl, damagedKind_of_recoverable hk, hl,
      recordCheckOk_slotWords r q hl]
  · simp [slotAccepted, hd, hb, h0, h1, kindOf_openingOf, lengthOf_openingOf r hl, hk, hl, recordCheckOk_slotWords r q hl]
  · simp only [placedOf, hd, h0, urgentOf_openingOf, lengthOf_openingOf r hl, slotWords_take r q hl]
  · simp [slotDamaged, hd, h1, Ne.symm hq]
  · simp [slotAccepted, hd, h1, Ne.symm hq]

end Sys2Proof.Machine

/-! PROOFS. What follows a change of the buffers, the queues or the power state: refill, held candidate, drain close, stall (R44 to R46,
R54). -/

namespace Sys2Proof.Machine
open Sys2Proof Sys2Proof.Machine Sys2Proof.Machine.Claims

section Buffers

variable {c : Commit} (p : Profile)

/-! ## Closing and refilling (R45, R46) -/

/-- What a buffer's opening, closing and placing leave of the Commit Engine: all but the buffers, the candidate, the queues, the placed
sequences and the scheduler. -/
structure Commit.SameHead (c d : Commit) : Prop where
  nextPage : d.nextPage = c.nextPage
  fetching : d.fetching = c.fetching
  inflight : d.inflight = c.inflight
  headBlock : d.headBlock = c.headBlock
  headPage : d.headPage = c.headPage
  ahead : d.ahead = c.ahead
  failed : d.failed = c.failed
  skip : d.skip = c.skip
  full : d.full = c.full
  upkeepHeld : d.upkeepHeld = c.upkeepHeld
  oldest : d.oldest = c.oldest
  begun : d.begun = c.begun
  closed : ∃ more, d.closed = c.closed ++ more

theorem Commit.SameHead.refl (c : Commit) : c.SameHead c := ⟨rfl, rfl, rfl, rfl, rfl, rfl, rfl, rfl, rfl, rfl, rfl, rfl, [], by simp⟩

theorem Commit.SameHead.trans {c d e : Commit} (h : c.SameHead d) (k : d.SameHead e) : c.SameHead e := by
  obtain ⟨more, hm⟩ := h.closed
  obtain ⟨more', hm'⟩ := k.closed
  exact ⟨k.nextPage.trans h.nextPage, k.fetching.trans h.fetching, k.inflight.trans h.inflight, k.headBlock.trans h.headBlock,
    k.headPage.trans h.headPage, k.ahead.trans h.ahead, k.failed.trans h.failed, k.skip.trans h.skip, k.full.trans h.full,
    k.upkeepHeld.trans h.upkeepHeld, k.oldest.trans h.oldest, k.begun.trans h.begun, more ++ more', by simp [hm', hm]⟩

theorem Commit.close_sameHead (k : CloseCause) (c : Commit) : c.SameHead (c.close k) := by
  unfold Commit.close
  split
  · exact .refl c
  · exact ⟨rfl, rfl, rfl, rfl, rfl, rfl, rfl, rfl, rfl, rfl, rfl, rfl, _, rfl⟩

theorem Commit.withPlaced_sameHead (f : FillBuf) (x : Candidate) (c : Commit) : c.SameHead (c.withPlaced p f x) :=
  ⟨rfl, rfl, rfl, rfl, rfl, rfl, rfl, rfl, rfl, rfl, rfl, rfl, [], by simp [Commit.withPlaced]⟩

theorem Commit.place_sameHead (f : FillBuf) (x : Candidate) (c : Commit) : c.SameHead (Commit.place p f x c) := by
  rw [Commit.place_eq]
  split
  · exact (Commit.withPlaced_sameHead p f x c).trans (Commit.close_sameHead _ _)
  · exact Commit.withPlaced_sameHead p f x c

/-- Buffers that are CLOSED or IN-FLIGHT, where none is FILLING. -/
theorem Commit.buffersUsed_of_none (h : c.filling = none) :
    c.buffersUsed = c.closed.length + (if c.inflight.isSome then 1 else 0) := by
  simp [Commit.buffersUsed, h]

theorem Commit.refill_filling (h : c.filling.isSome = true) : c.refill = c := by
  simp [Commit.refill, Option.isNone_iff_eq_none, Option.isSome_iff_ne_none.mp h]

theorem Commit.refill_free (h : c.filling = none) (hu : c.buffersUsed < 2) : c.refill = { c with filling := some ⟨[], 0⟩ } := by
  rw [Commit.buffersUsed_of_none h] at hu
  simp [Commit.refill, h, hu, emptyFill]

theorem Commit.refill_used (h : 2 ≤ c.buffersUsed) : c.refill = c := by
  by_cases hf : c.filling = none
  · rw [Commit.buffersUsed_of_none hf] at h
    simp [Commit.refill, Nat.not_lt.mpr h]
  · exact Commit.refill_filling (Option.isSome_iff_ne_none.mpr hf)

/-- A refill changes the FILLING buffer at most, and the one it opens holds no record. -/
theorem Commit.refill_cases (c : Commit) : c.refill = c ∨ c.filling = none ∧ c.buffersUsed < 2 ∧ c.refill = { c with filling := some ⟨[], 0⟩ } := by
  by_cases hu : c.buffersUsed < 2
  · by_cases hf : c.filling = none
    · exact .inr ⟨hf, hu, Commit.refill_free hf hu⟩
    · exact .inl (Commit.refill_filling (Option.isSome_iff_ne_none.mpr hf))
  · exact .inl (Commit.refill_used (Nat.le_of_not_lt hu))

theorem Commit.refill_sameHead (c : Commit) : c.SameHead c.refill := by
  rcases Commit.refill_cases c with h | ⟨-, -, h⟩ <;> rw [h]
  · exact .refl c
  · exact ⟨rfl, rfl, rfl, rfl, rfl, rfl, rfl, rfl, rfl, rfl, rfl, rfl, [], by simp⟩

theorem Commit.placeHeld_sameHead (c : Commit) : c.SameHead (c.placeHeld p) := by
  unfold Commit.placeHeld
  split
  next x f _ _ =>
    have h := Commit.place_sameHead p f x { c with held := none }
    exact ⟨h.nextPage, h.fetching, h.inflight, h.headBlock, h.headPage, h.ahead, h.failed, h.skip, h.full, h.upkeepHeld, h.oldest, h.begun,
      h.closed⟩
  next => exact .refl c

theorem Commit.turnOver_sameHead (c : Commit) : c.SameHead (c.turnOver p) :=
  ((Commit.refill_sameHead c).trans (Commit.placeHeld_sameHead p _)).trans (Commit.refill_sameHead _)

/-- A buffer that closes takes its records, its cause and the placed sequences as they stand. -/
theorem Commit.close_filling {f : FillBuf} (h : c.filling = some f) (k : CloseCause) :
    c.close k = { c with filling := none, closed := c.closed ++ [headerAt c f.recs k] } := by
  simp [Commit.close, h, headerAt]

/-- A refill leaves no buffer FREE where none is FILLING. -/
theorem Commit.refill_refill (c : Commit) : c.refill.refill = c.refill := by
  rcases Commit.refill_cases c with h | ⟨-, -, h⟩ <;> rw [h]
  · exact h
  · exact Commit.refill_filling rfl

/-! ## Turning over (R44, R45) -/

theorem Commit.placeHeld_none (h : c.held = none) : c.placeHeld p = c := by simp [Commit.placeHeld, h]

/-- With no candidate held, only a FREE buffer begins to fill. -/
theorem Commit.turnOver_unheld (h : c.held = none) : c.turnOver p = c.refill := by
  have hr : c.refill.held = none := by
    rcases Commit.refill_cases c with e | ⟨-, -, e⟩ <;> rw [e] <;> exact h
  rw [Commit.turnOver, Commit.placeHeld_none p hr, Commit.refill_refill]

theorem Commit.turnOver_filling (h : c.held = none) (hf : c.filling.isSome = true) : c.turnOver p = c := by
  rw [Commit.turnOver_unheld p h, Commit.refill_filling hf]

/-- Without a buffer to fill nothing happens. -/
theorem Commit.turnOver_used (hf : c.filling = none) (hu : 2 ≤ c.buffersUsed) : c.turnOver p = c := by
  have hp : c.placeHeld p = c := by cases hh : c.held <;> simp [Commit.placeHeld, hf, hh]
  rw [Commit.turnOver, Commit.refill_used hu, hp, Commit.refill_used hu]

/-- The held candidate goes into the FREE buffer that begins to fill. -/
theorem Commit.turnOver_held {x : Candidate} (hh : c.held = some x) (hf : c.filling = none) (hu : c.buffersUsed < 2) :
    c.turnOver p = (Commit.place p ⟨[], 0⟩ x { c with filling := some ⟨[], 0⟩, held := none }).refill := by
  rw [Commit.turnOver, Commit.refill_free hf hu]
  simp [Commit.placeHeld, hh]

end Buffers

/-! ## Settling: drain close and stall (R46, R54) -/

section Settle

variable {s t : State} {r : Record}

theorem Claims.Offered.outbox {cs : List Cause} (h : Offered s t r cs) : s.stg.outbox <+: t.stg.outbox := by
  by_cases hl : s.stg.outbox.length < 8
  · rw [(h.1 hl).1]
    exact List.prefix_append _ _
  · exact (h.2 (Nat.le_of_not_lt hl)).1 ▸ List.prefix_refl _

/-- The commit side once the buffers have turned over and a drained page has closed. -/
def State.settledCom (s : State) : Commit :=
  let c := s.com.turnOver s.prof
  if ({ s with com := c } : State).drainClose then (c.close .drain).turnOver s.prof else c

theorem State.settle_eq (s : State) : s.settle = ({ s with com := s.settledCom } : State).noteStall := by
  unfold State.settle State.settledCom
  dsimp only
  split <;> rfl

theorem settledCom_sameHead (s : State) : s.com.SameHead s.settledCom := by
  have ht := Commit.turnOver_sameHead s.prof s.com
  unfold State.settledCom
  dsimp only
  split
  · exact (ht.trans (Commit.close_sameHead .drain _)).trans (Commit.turnOver_sameHead s.prof _)
  · exact ht

theorem settledCom_of_open (h : ({ s with com := s.com.turnOver s.prof } : State).drainClose = false) :
    s.settledCom = s.com.turnOver s.prof := by
  simp [State.settledCom, h]

theorem drainClose_of_power (h : s.pow.state.drains = false) : s.drainClose = false := by simp [State.drainClose, h]

theorem drainClose_of_queued (h : s.com.drained = false) : s.drainClose = false := by simp [State.drainClose, h]

theorem drainClose_of_empty (h : s.com.fillingHolds = false) : s.drainClose = false := by simp [State.drainClose, h]

theorem Commit.fillingHolds_none {c : Commit} (h : c.filling = none) : c.fillingHolds = false := by simp [Commit.fillingHolds, h]

theorem Commit.fillingHolds_empty {c : Commit} (h : c.filling = some ⟨[], 0⟩) : c.fillingHolds = false := by simp [Commit.fillingHolds, h]

/-- A buffer that turned over from none holds no record, where no candidate was held. -/
theorem Commit.refill_fillingHolds {c : Commit} (h : c.filling = none) : c.refill.fillingHolds = false := by
  rcases Commit.refill_cases c with e | ⟨-, -, e⟩ <;> rw [e]
  · exact Commit.fillingHolds_none h
  · exact rfl

/-- With none FILLING and no candidate held, settling opens a FREE buffer at most. -/
theorem settledCom_unheld_none (hh : s.com.held = none) (hf : s.com.filling = none) : s.settledCom = s.com.refill := by
  rw [settledCom_of_open, Commit.turnOver_unheld _ hh]
  refine drainClose_of_empty ?_
  rw [Commit.turnOver_unheld _ hh]
  exact Commit.refill_fillingHolds hf

/-- With a buffer FILLING, no candidate held and no drain to close it, settling changes no buffer. -/
theorem settledCom_filling (hh : s.com.held = none) (hf : s.com.filling.isSome = true) (hd : s.drainClose = false) : s.settledCom = s.com := by
  have ht := Commit.turnOver_filling s.prof hh hf
  rw [settledCom_of_open (by rw [ht]; exact hd), ht]

/-- In RUN settling only turns the buffers over. -/
theorem settledCom_run (h : s.pow.state = .run) : s.settledCom = s.com.turnOver s.prof :=
  settledCom_of_open (drainClose_of_power (by simp [h, PowerState.drains]))

theorem noteStall_quiet (h : s.com.stalled = false ∨ s.com.full = true) : s.noteStall = s := by
  rcases h with h | h <;> simp [State.noteStall, h]

/-- A stall not yet noted sets the flag, is reported, and raises FULL. -/
theorem noteStall_stalls (hs : s.com.stalled = true) (hf : s.com.full = false) :
    ∃ o l a, s.noteStall = { s with
        stg := { s.stg with outbox := o, lost := l }
        com := { s.com with full := true }
        mir := { s.mir with dirty := true, attention := a } } ∧
      Offered s s.noteStall (journalEvent s 4 s.com.headBlock 0) [.full] ∧ a.get Cause.full.ix = .waiting := by
  have he : s.noteStall = (({ s with com := { s.com with full := true }, mir := { s.mir with dirty := true } } : State).offerNow 0xF9#8 false
      [numWord 4, numWord s.com.headBlock, numWord 0]).raise .full := by
    simp [State.noteStall, hs, hf, State.mark, State.offerJournalEvent]
  have ho := offerNow_offered 0xF9#8 false [numWord 4, numWord s.com.headBlock, numWord 0]
    ({ s with com := { s.com with full := true }, mir := { s.mir with dirty := true } } : State)
  have hq := offerNow_eq 0xF9#8 false [numWord 4, numWord s.com.headBlock, numWord 0]
    ({ s with com := { s.com with full := true }, mir := { s.mir with dirty := true } } : State)
  refine ⟨s.noteStall.stg.outbox, s.noteStall.stg.lost, s.noteStall.mir.attention, ?_, ?_, ?_⟩
  · rw [he, hq]
    rfl
  · rw [he]
    exact (ho.before (s := s) (bs := []) (cs := []) rfl rfl (causesKept_of_eq rfl) (by simp)).after rfl rfl (raise_causesKept .full _) (by simp)
      (by simp)
  · rw [he]
    exact raise_waiting .full _

/-- All that noting a stall can do. -/
theorem noteStall_cases (s : State) :
    (s.noteStall = s ∧ (s.com.stalled = false ∨ s.com.full = true)) ∨ (s.com.stalled = true ∧ s.com.full = false) := by
  cases hs : s.com.stalled <;> cases hf : s.com.full <;> simp [noteStall_quiet, hs, hf]

theorem noteStall_causesKept (s : State) : CausesKept s s.noteStall [.full, .lost] := by
  rcases noteStall_cases s with ⟨h, -⟩ | ⟨hs, hf⟩
  · exact causesKept_of_eq (by rw [h])
  · obtain ⟨_, _, _, -, ho, -⟩ := noteStall_stalls hs hf
    exact ho.causesKept.mono (by simp)

/-- Noting a stall sets the flag at most. -/
theorem noteStall_com (s : State) : s.noteStall.com = { s.com with full := s.noteStall.com.full } := by
  rcases noteStall_cases s with ⟨h, -⟩ | ⟨hs, hf⟩
  · rw [h]
  · obtain ⟨_, _, _, h, -⟩ := noteStall_stalls hs hf
    rw [h]

/-- All that settling writes: the commit side, the outbox, the LOST count, and what the mirror shows of them. -/
theorem settle_frame_eq (s : State) : s.settle = { s with
    stg := { s.stg with outbox := s.settle.stg.outbox, lost := s.settle.stg.lost }
    com := s.settle.com
    mir := { s.mir with dirty := s.settle.mir.dirty, attention := s.settle.mir.attention } } := by
  rw [State.settle_eq]
  rcases noteStall_cases { s with com := s.settledCom } with ⟨h, -⟩ | ⟨hs, hf⟩
  · rw [h]
  · obtain ⟨_, _, _, h, -⟩ := noteStall_stalls hs hf
    rw [h]

@[simp] theorem settle_staging (s : State) : s.settle.stg.rings = s.stg.rings ∧ s.settle.stg.queue = s.stg.queue ∧
    s.settle.stg.writing = s.stg.writing ∧ s.settle.stg.last = s.stg.last := by
  rw [settle_frame_eq]
  exact ⟨rfl, rfl, rfl, rfl⟩

theorem settle_causesKept (s : State) : CausesKept s s.settle [.full, .lost] := by
  rw [State.settle_eq]
  exact fun c hc => noteStall_causesKept { s with com := s.settledCom } c hc

/-- Settling only sets what the mirror is to show. -/
theorem settle_dirty (h : s.mir.dirty = true) : s.settle.mir.dirty = true := by
  rw [State.settle_eq]
  rcases noteStall_cases { s with com := s.settledCom } with ⟨e, -⟩ | ⟨hs, hf⟩
  · rw [e]
    exact h
  · obtain ⟨_, _, _, e, -⟩ := noteStall_stalls hs hf
    rw [e]

/-- The commit side after settling, but for the journal-full flag. -/
theorem settle_com (s : State) : s.settle.com = { s.settledCom with full := s.settle.com.full } := by
  rw [State.settle_eq]
  exact noteStall_com _

/-- A record offered leaves those before it at the front of the outbox. -/
theorem offer_outbox (r : Record) (s : State) : s.stg.outbox <+: (s.offer r).stg.outbox := by
  by_cases h : s.stg.outbox.length < 8
  · rw [State.offer_room r s h]
    exact List.prefix_append _ _
  · rw [State.offer_full r s (Nat.le_of_not_lt h)]
    exact List.prefix_refl _

theorem settle_outbox (s : State) : s.stg.outbox <+: s.settle.stg.outbox := by
  rw [State.settle_eq]
  rcases noteStall_cases { s with com := s.settledCom } with ⟨h, -⟩ | ⟨hs, hf⟩
  · rw [h] <;> exact List.prefix_refl _
  · obtain ⟨_, _, _, -, ho, -⟩ := noteStall_stalls hs hf
    exact ho.outbox

/-- Settling moves neither the head nor what is in flight, and leaves upkeep and the journal's end alone. -/
@[simp] theorem settle_head (s : State) : s.settle.com.nextPage = s.com.nextPage ∧ s.settle.com.fetching = s.com.fetching ∧
    s.settle.com.inflight = s.com.inflight ∧ s.settle.com.headBlock = s.com.headBlock ∧ s.settle.com.headPage = s.com.headPage ∧
    s.settle.com.ahead = s.com.ahead ∧ s.settle.com.failed = s.com.failed ∧ s.settle.com.skip = s.com.skip ∧
    s.settle.com.upkeepHeld = s.com.upkeepHeld ∧ s.settle.com.oldest = s.com.oldest ∧ s.settle.com.begun = s.com.begun := by
  have h := settledCom_sameHead s
  rw [settle_com]
  exact ⟨h.nextPage, h.fetching, h.inflight, h.headBlock, h.headPage, h.ahead, h.failed, h.skip, h.upkeepHeld, h.oldest, h.begun⟩

/-- A stall depends on the CLOSED buffers, the IN-FLIGHT one and the head alone. -/
theorem Commit.stalled_congr {c d : Commit} (hc : d.closed = c.closed) (hi : d.inflight = c.inflight) (hp : d.headPage = c.headPage)
    (ha : d.ahead = c.ahead) : d.stalled = c.stalled := by
  simp [Commit.stalled, Commit.mustProgram, Commit.headAvailable, hc, hi, hp, ha]

end Settle
end Sys2Proof.Machine

/-! PROOFS. Records join the commit queues, buffers close by deadline, upkeep asks for the tail (R25, R46, R55). -/

namespace Sys2Proof.Machine
open Sys2Proof Sys2Proof.Machine Sys2Proof.Machine.Claims

/-! ## A ring write completes (R25) -/

section RingWrite

variable {s : State}

theorem Commit.drained_false {c : Commit} {i : ClassId} (h : c.queues.get i ≠ []) : c.drained = false := by
  rw [Commit.drained, List.all_eq_false]
  exact ⟨_, (Four.mem_toList c.queues _).mpr ⟨i, rfl⟩, by simpa using h⟩

theorem Commit.refill_queues (c : Commit) : c.refill.queues = c.queues := by
  rcases Commit.refill_cases c with e | ⟨-, -, e⟩ <;> rw [e]

theorem Commit.refill_eq (c : Commit) : c.refill = { c with filling := c.refill.filling } := by
  rcases Commit.refill_cases c with e | ⟨-, -, e⟩ <;> rw [e]

/-- With a record waiting, a buffer that turned over without a held candidate is not closed by DRAIN. -/
theorem settledCom_queued {i : ClassId} (hq : s.com.queues.get i ≠ []) (hh : s.com.held = none ∨ s.com.filling = none ∧ 2 ≤ s.com.buffersUsed) :
    s.settledCom = s.com.refill := by
  have ht : s.com.turnOver s.prof = s.com.refill := by
    rcases hh with hh | ⟨hf, hu⟩
    · exact Commit.turnOver_unheld _ hh
    · rw [Commit.turnOver_used _ hf hu, Commit.refill_used hu]
  rw [settledCom_of_open, ht]
  rw [ht]
  exact drainClose_of_queued (Commit.drained_false (i := i) (by simpa [Commit.refill_queues] using hq))

/-- Settling with a record waiting and no candidate to place: a FREE buffer begins to fill. -/
theorem settle_queued_quiet {i : ClassId} (hq : s.com.queues.get i ≠ []) (hh : s.com.held = none ∨ s.com.filling = none ∧ 2 ≤ s.com.buffersUsed)
    (hn : s.com.stalled = false ∨ s.com.full = true) : s.settle = { s with com := { s.com with filling := s.com.refill.filling } } := by
  rw [State.settle_eq, settledCom_queued hq hh, Commit.refill_eq]
  exact noteStall_quiet (hn.imp_left (fun h => (Commit.stalled_congr rfl rfl rfl rfl).trans h))

/-- The same with a stall that is not yet noted. -/
theorem settle_queued_stalls {i : ClassId} (hq : s.com.queues.get i ≠ []) (hh : s.com.held = none ∨ s.com.filling = none ∧ 2 ≤ s.com.buffersUsed)
    (hs : s.com.stalled = true) (hf : s.com.full = false) :
    ∃ o l a, s.settle = { s with
        stg := { s.stg with outbox := o, lost := l }
        com := { s.com with filling := s.com.refill.filling, full := true }
        mir := { s.mir with dirty := true, attention := a } } ∧
      Offered s s.settle (journalEvent s 4 s.com.headBlock 0) [.full] ∧ a.get Cause.full.ix = .waiting := by
  rw [State.settle_eq, settledCom_queued hq hh, Commit.refill_eq]
  exact noteStall_stalls (s := { s with com := { s.com with filling := s.com.refill.filling } })
    ((Commit.stalled_congr rfl rfl rfl rfl).trans hs) hf

theorem settle_queued_filling {i : ClassId} (hq : s.com.queues.get i ≠ []) (hh : s.com.held = none ∨ s.com.filling = none ∧ 2 ≤ s.com.buffersUsed) :
    s.settle.com.filling = s.com.refill.filling := by
  rw [settle_com, settledCom_queued hq hh]

/-- All that the step to a self-refresh entry can do. -/
theorem beginEntry_frame_eq (s : State) : s.beginEntry = { s with
    dram := { s.dram with rows := s.beginEntry.dram.rows, refresh := s.beginEntry.dram.refresh } } := by
  unfold State.beginEntry
  split <;> rfl

theorem beginEntry_idle (h : s.dram.entryReq = none ∨ s.stg.queue ≠ [] ∨ s.dram.refresh ≠ .none) : s.beginEntry = s := by
  rcases h with h | h | h
  · exact beginEntry_waits s (.inl h)
  · exact beginEntry_waits s (.inr h)
  · simp [State.beginEntry, h]

/-- A self-refresh entry goes on: the rows close and the refreshes owed follow. -/
theorem beginEntry_goes (he : s.dram.entryReq ≠ none) (hq : s.stg.queue = []) (hg : s.dram.grant = none) (hr : s.dram.refresh = .none) :
    s.beginEntry = { s with dram := { s.dram with
      rows := closedRows s.prof.banks, refresh := if 0 < s.dram.owed then .entry else .none } } := by
  simp [State.beginEntry, State.entryDue, Option.isSome_iff_ne_none.mpr he, hq, hg, hr, State.closeAll]

theorem closedRows_allClosed (p : Profile) : AllClosed p (closedRows p.banks) := by
  rw [AllClosed, Four.forall_fin]
  by_cases hb : p.banks = 4 <;> simp [closedRows, hb, Four.get] <;> decide

theorem carryOut_write (off : Nat) (ws : List Word) (h : s.dram.entryReq = none ∨ s.stg.queue ≠ []) :
    (s.carryOut (.write off ws)).endGrant =
      { s with dram := { s.dram with cells := writeDram s.dram.cells off ws, grant := none } } := carried_eq _ h

/-- The state once a ring write is in DRAM and its record staged, before a self-refresh entry goes on and the commit side settles. -/
def State.stagedAs (e : RingEntry) (q : List RingEntry) (seq : Seq) (off : Nat) (s : State) : State :=
  { s with
    stg := { s.stg with
      rings := s.stg.rings.set e.cls { s.stg.rings.get e.cls with
        next := (s.stg.rings.get e.cls).next + 1#32
        staged := (s.stg.rings.get e.cls).staged + 1
        reserved := (s.stg.rings.get e.cls).reserved - 1 }
      queue := q, writing := none, last := lastStaged s.stg.last e seq }
    com := { s.com with queues := s.com.queues.set e.cls (s.com.queues.get e.cls ++ [seq]) }
    dram := { s.dram with cells := writeDram s.dram.cells off (slotWords e.body seq), grant := none }
    mir := { s.mir with dirty := true } }

theorem ringWriteComplete_eq {e : RingEntry} {q : List RingEntry} {seq : Seq} {off : Nat} (hq : s.stg.queue = e :: q)
    (hw : s.stg.writing = some seq) (hg : s.dram.grant = some (.source .stager (.write off (slotWords e.body seq)))) :
    exec .ringWriteComplete s = .next (s.stagedAs e q seq off).beginEntry.settle := by
  have hb : ((s.carryOut (.write off (slotWords e.body seq))).endGrant).recordStaged e seq = s.stagedAs e q seq off := by
    rw [carryOut_write off _ (.inr (by simp [hq]))]
    simp [State.recordStaged, State.stagedAs, hq, ClassRing.written]
  simp only [exec, execRingWriteComplete, hg, hw, hq, hb]

end RingWrite

/-- Settles O23. -/
theorem ringWriteCompleteStagesRecord : Obligations.RingWriteCompleteStagesRecord := by
  unfold Obligations.RingWriteCompleteStagesRecord
  intro s e q seq off hq hw hm hg queues
  obtain ⟨hm, -⟩ := (State.memoryWf_iff s).mp hm
  have hcom : (s.stagedAs e q seq off).beginEntry.com = { s.com with queues := queues } := by simp [State.stagedAs, queues]
  have hstg : (s.stagedAs e q seq off).beginEntry.stg = (s.stagedAs e q seq off).stg := by simp
  have hmir : (s.stagedAs e q seq off).beginEntry.mir = { s.mir with dirty := true } := by simp [State.stagedAs]
  have hpow : (s.stagedAs e q seq off).beginEntry.pow = s.pow := by simp [State.stagedAs]
  have hqueued : (s.stagedAs e q seq off).beginEntry.com.queues.get e.cls ≠ [] := by
    rw [hcom]
    simp [queues]
  have hheld (hh : s.com.held = none ∨ s.com.filling = none ∧ 2 ≤ s.com.buffersUsed) :
      (s.stagedAs e q seq off).beginEntry.com.held = none ∨
        (s.stagedAs e q seq off).beginEntry.com.filling = none ∧ 2 ≤ (s.stagedAs e q seq off).beginEntry.com.buffersUsed := by
    rw [hcom]
    exact hh
  refine ⟨_, ringWriteComplete_eq hq hw hg, ?_, ?_, fun hn hh => ?_, fun hs hf hh => ?_, fun hf hh => ?_, fun hf hu hh => ?_, fun hi => ?_,
    fun he hq' hr => ?_, ?_, fun p hp => ?_, fun hp => ?_, fun a h1 h2 => ?_, fun a ha => ?_⟩
  · rw [settle_frame_eq, settle_dirty (by rw [hmir]), beginEntry_frame_eq]
    simp [State.stagedAs]
  · exact fun c hc => (settle_causesKept _ c hc).trans (by rw [hmir])
  · rw [settle_queued_quiet hqueued (hheld hh) (by rw [hcom]; exact hn), hcom, hstg, hmir]
    exact ⟨rfl, rfl, rfl, rfl⟩
  · obtain ⟨o, l, a, ht, ho, ha⟩ := settle_queued_stalls hqueued (hheld hh) (by rw [hcom]; exact hs) (by rw [hcom]; exact hf)
    refine ⟨?_, by rw [ht]; exact ha, by rw [ht, hcom]⟩
    have hrec : journalEvent (s.stagedAs e q seq off).beginEntry 4 (s.stagedAs e q seq off).beginEntry.com.headBlock 0 =
        journalEvent s 4 s.com.headBlock 0 := by
      rw [hcom, journalEvent, State.stamp, hpow]
      rfl
    rw [hrec] at ho
    exact ho.before (bs := []) (by rw [hstg]; rfl) (by rw [hstg]; rfl) (causesKept_of_eq (by rw [hmir])) (by simp)
  · have hh' : s.com.held = none ∨ s.com.filling = none ∧ 2 ≤ s.com.buffersUsed :=
      hh.imp_right (fun hn => ⟨hn, hf.resolve_left (by simp [hn])⟩)
    rw [settle_queued_filling hqueued (hheld hh'), hcom]
    rcases hf with hf | hf
    · rw [Commit.refill_filling (c := { s.com with queues := queues }) hf]
    · rw [Commit.refill_used (c := { s.com with queues := queues }) hf]
  · rw [settle_queued_filling hqueued (hheld (.inl hh)), hcom, Commit.refill_free (c := { s.com with queues := queues }) hf hu]
  · rw [beginEntry_idle (s := s.stagedAs e q seq off) hi]
    simp [State.stagedAs]
  · rw [beginEntry_goes (s := s.stagedAs e q seq off) he hq' rfl hr]
    exact ⟨by simpa [State.stagedAs] using closedRows_allClosed s.prof, by simp only [State.settle_frame]; rfl⟩
  · simp [State.stagedAs]
  · simp [State.stagedAs, lastStaged, hp]
  · simp [State.stagedAs, lastStaged, hp]
  · simpa [State.stagedAs] using readCell_writeDram_inside s.dram.cells off (slotWords e.body seq) a hm h1 h2
  · simpa [State.stagedAs, cellsAfter] using cellsAfter_outside s.dram.cells (.write off (slotWords e.body seq)) a ha

end Sys2Proof.Machine

/-! PROOFS. The flush deadline, upkeep and the ring of journal blocks (R46, R47, R55). -/

namespace Sys2Proof.Machine
open Sys2Proof Sys2Proof.Machine Sys2Proof.Machine.Claims

/-! ## The part awake (R151, R156) -/

section Awake

variable {s : State}

theorem clockRuns_awake (h : Awake s) : s.clockRuns = true := by
  obtain ⟨hs, -, hp⟩ := h
  rcases hp with hp | hp | hp | hp <;> simp [State.clockRuns, hs, hp]

theorem working_awake (h : Awake s) : s.working = true := by
  simp [State.working, clockRuns_awake h, h.2.1]

theorem commits_awake (h : Awake s) : s.pow.state.commits = true := by
  rcases h.2.2 with hp | hp | hp | hp <;> simp [PowerState.commits, hp]

/-- Time passes for the commit side of a running part: its FILLING buffer counts. -/
theorem pass_com_filling (n : Nat) (hc : s.clockRuns = true) {f : FillBuf} (hf : s.com.filling = some f) :
    (s.pass n).com = { s.com with filling := some (f.pass s.prof.flushDeadline n) } := by
  have hs : s.su.supply ≠ .off := by simp [((State.clockRuns_iff s).mp hc).1]
  simp [State.pass, hs, hc, hf]

theorem FillBuf.pass_recs (limit n : Nat) (f : FillBuf) : (f.pass limit n).recs = f.recs := by
  unfold FillBuf.pass
  split <;> rfl

end Awake

/-! ## The flush deadline (R46) -/

/-- A settled state whose commit side alone was changed differs from the state before by what `CommitFrame` names. -/
theorem settle_commitFrame (u : State) (c : Commit) : CommitFrame u ({ u with com := c } : State).settle := by
  refine ⟨?_, fun d hd => settle_causesKept { u with com := c } d hd⟩
  conv => lhs; rw [settle_frame_eq]
  simp

/-- The buffers once the FILLING one has closed, with no candidate held: nothing more closes, and a FREE one begins to fill. -/
theorem settledCom_closed {u : State} {c : Commit} {f : FillBuf} (k : CloseCause) (hf : c.filling = some f) (hh : c.held = none) :
    ({ u with com := c.close k } : State).settledCom = (c.close k).refill := by
  rw [Commit.close_filling hf]
  exact settledCom_unheld_none hh rfl

/-- Settles O28. -/
theorem flushDeadlineClosesBuffer : Obligations.FlushDeadlineClosesBuffer := by
  unfold Obligations.FlushDeadlineClosesBuffer
  intro s f ha hf hr hh
  have hc := clockRuns_awake ha
  have hcom := pass_com_filling (s.prof.flushDeadline - f.flush) hc hf
  have hstep : exec .flushDeadlineExpiry s = .next ({ s.pass (s.prof.flushDeadline - f.flush) with
      com := (s.pass (s.prof.flushDeadline - f.flush)).com.close .deadline } : State).settle := by
    simp [exec, execFlushDeadlineExpiry, hf, hc, hr]
  refine ⟨_, _, rfl, hstep, settle_commitFrame _ _, ?_⟩
  have hset := settledCom_closed (u := s.pass (s.prof.flushDeadline - f.flush)) (c := (s.pass (s.prof.flushDeadline - f.flush)).com)
    .deadline (by rw [hcom]) (by rw [hcom]; exact hh)
  have hclose : (s.pass (s.prof.flushDeadline - f.flush)).com.close .deadline =
      { s.com with filling := none, closed := s.com.closed ++ [headerAt s.com f.recs .deadline] } := by
    rw [hcom, Commit.close_filling rfl, FillBuf.pass_recs]
    rfl
  have hused : ({ s.com with filling := none, closed := s.com.closed ++ [headerAt s.com f.recs .deadline] } : Commit).buffersUsed =
      s.com.buffersUsed := by
    rw [← Commit.close_filling hf, Commit.close_buffersUsed]
  rw [settle_com, hset, hclose]
  by_cases hu : s.com.buffersUsed < 2
  · rw [Commit.refill_free rfl (by rw [hused]; exact hu)]
    exact ⟨rfl, .inr rfl, by simp [Nat.not_le.mpr hu], rfl, rfl, by simp⟩
  · rw [Commit.refill_used (by rw [hused]; omega)]
    exact ⟨rfl, .inl rfl, by simp [Nat.le_of_not_lt hu], rfl, rfl, by simp⟩

/-! ## The ring of journal blocks -/

/-- A block of the flash journal. -/
def InRing (b : Nat) : Prop := 256 ≤ b ∧ b ≤ 2047

theorem inRing_ringNext {b : Nat} (h : InRing b) : InRing (ringNext b) := by
  unfold InRing ringNext at *
  split <;> omega

/-- The `k`-th block after a block of the ring. -/
def ringAfter : Nat → Nat → Nat
  | 0, b => b
  | k + 1, b => ringAfter k (ringNext b)

theorem ringAfter_eq (k : Nat) {b : Nat} (h : InRing b) : ringAfter k b = 256 + (b - 256 + k) % 1792 := by
  induction k generalizing b with
  | zero =>
    obtain ⟨h1, h2⟩ := h
    rw [ringAfter]
    omega
  | succ k ih =>
    rw [ringAfter, ih (inRing_ringNext h)]
    obtain ⟨h1, h2⟩ := h
    unfold ringNext
    split <;> omega

/-- A search in the ring ends at a block that passes, or finds that none of the blocks it looked at does. -/
theorem ringFind_spec (p : Nat → Bool) (fuel b : Nat) :
    p (ringFind p fuel b) = true ∨ ∀ k, 1 ≤ k → k ≤ fuel → p (ringAfter k b) = false := by
  induction fuel generalizing b with
  | zero => exact .inr (fun k h1 h2 => absurd h1 (by omega))
  | succ n ih =>
    rw [ringFind]
    by_cases hp : p (ringNext b) = true
    · rw [if_pos hp]
      exact .inl hp
    · rw [if_neg hp]
      refine (ih (ringNext b)).imp_right (fun h k h1 h2 => ?_)
      obtain ⟨j, rfl⟩ := Nat.exists_eq_succ_of_ne_zero (Nat.one_le_iff_ne_zero.mp h1)
      rw [ringAfter]
      by_cases hj : j = 0
      · subst hj
        exact Bool.eq_false_iff.mpr hp
      · exact h j (by omega) (by omega)

/-- A search of the whole ring finds a block that passes where there is one. -/
theorem ringFind_passes {p : Nat → Bool} {a b : Nat} (hb : InRing b) (ha : InRing a) (hp : p a = true) : p (ringFind p 1792 b) = true := by
  refine (ringFind_spec p 1792 b).resolve_right (fun h => ?_)
  obtain ⟨a1, a2⟩ := ha
  obtain ⟨b1, b2⟩ := hb
  have hk : ∃ k, 1 ≤ k ∧ k ≤ 1792 ∧ (b - 256 + k) % 1792 = a - 256 := by
    by_cases hl : b < a
    · exact ⟨a - b, by omega, by omega, by omega⟩
    · exact ⟨a + 1792 - b, by omega, by omega, by omega⟩
  obtain ⟨k, h1, h2, h3⟩ := hk
  have hf := h k h1 h2
  rw [ringAfter_eq k ⟨b1, b2⟩, h3, show 256 + (a - 256) = a by omega, hp] at hf
  exact absurd hf (by simp)

theorem inRing_ringFind (p : Nat → Bool) (fuel : Nat) {b : Nat} (h : InRing b) : InRing (ringFind p fuel b) := by
  induction fuel generalizing b with
  | zero => exact h
  | succ n ih =>
    rw [ringFind]
    split
    · exact inRing_ringNext h
    · exact ih (inRing_ringNext h)

theorem inRing_ringSkip (skip : List Nat) (n : Nat) {b : Nat} (h : InRing b) : InRing (ringSkip skip n b) := by
  induction n generalizing b with
  | zero => exact h
  | succ n ih => exact ih (inRing_ringFind _ _ h)

/-- A list with fewer than `n` members leaves out one of `n` successive numbers. -/
theorem exists_not_mem_of_length_lt {n : Nat} (lo : Nat) {l : List Nat} (h : l.length < n) : ∃ a, lo ≤ a ∧ a < lo + n ∧ a ∉ l := by
  induction n generalizing l with
  | zero => exact absurd h (Nat.not_lt_zero _)
  | succ n ih =>
    by_cases hm : lo + n ∈ l
    · have hl : (l.erase (lo + n)).length < n := by
        rw [List.length_erase_of_mem hm]
        have := List.length_pos_of_mem hm
        omega
      obtain ⟨a, h1, h2, h3⟩ := ih hl
      exact ⟨a, h1, by omega, fun ha => h3 ((List.mem_erase_of_ne (by omega)).mpr ha)⟩
    · exact ⟨lo + n, by omega, by omega, hm⟩

/-- A short list leaves a block of the ring out, beside any one block. -/
theorem exists_inRing_not_mem {skip : List Nat} (h : skip.length ≤ 16) (b : Nat) : ∃ a, InRing a ∧ a ∉ skip ∧ a ≠ b := by
  obtain ⟨a, h1, h2, hn⟩ := exists_not_mem_of_length_lt (n := 1792) 256 (l := b :: skip) (by simp only [List.length_cons]; omega)
  obtain ⟨hne, hns⟩ := not_or.mp (fun ho => hn (List.mem_cons.mpr ho))
  exact ⟨a, ⟨h1, by omega⟩, hns, hne⟩

/-- Settles O31. -/
theorem upkeepErasesTheTail : Obligations.UpkeepErasesTheTail := by
  unfold Obligations.UpkeepErasesTheTail
  refine ⟨fun s ha hs hp hb hu => ⟨fun hl => ?_, fun hl => ?_⟩, fun c h1 h2 hl => ?_⟩
  · have hup : s.pow.state.upkeeps = true := by
      rcases ha.2.2 with h | h | h | h
      · exact by simp [h, PowerState.upkeeps]
      · exact by simp [h, PowerState.upkeeps]
      · exact by simp [h, PowerState.upkeeps]
      · exact absurd h hp
    simp [exec, execUpkeepEraseRequest, working_awake ha, State.upkeepDue, hs, hup, hl, hb, hu]
  · simp [exec, execUpkeepEraseRequest, State.upkeepDue, hl]
  · have hstart := inRing_ringSkip c.skip c.ahead (b := c.headBlock) ⟨h1, h2⟩
    obtain ⟨a, ha, hn, hne⟩ := exists_inRing_not_mem hl c.headBlock
    have ht := inRing_ringFind (fun x => !c.skip.contains x && x != c.headBlock) 1792 hstart
    have hp : (!c.skip.contains c.tail && c.tail != c.headBlock) = true :=
      ringFind_passes (p := fun x => !c.skip.contains x && x != c.headBlock) hstart ha (by simp [hn, hne])
    simp only [Bool.and_eq_true, Bool.not_eq_true', List.contains_eq_mem, decide_eq_false_iff_not, bne_iff_ne] at hp
    exact ⟨ht.1, ht.2, hp.1, hp.2⟩

end Sys2Proof.Machine

/-! PROOFS. A page goes in flight, is confirmed, or fails (R29, R47 to R54). -/

namespace Sys2Proof.Machine
open Sys2Proof Sys2Proof.Machine Sys2Proof.Machine.Claims

/-! ## Jobs that end with no erase suspended (R63) -/

section Pages

variable {s : State}

theorem finishJob_alone (h : s.flash.suspended = none) : s.finishJob = { s with flash := { s.flash with current := none } } := by
  simp [State.finishJob, Flash.finish, h]

/-- The buffers and the candidate once settled, where none is held: queues and scheduler are as before. -/
theorem settledCom_queues (h : s.com.held = none) : s.settledCom.queues = s.com.queues ∧ s.settledCom.held = none := by
  have turn (c : Commit) (hc : c.held = none) : (c.turnOver s.prof).queues = c.queues ∧ (c.turnOver s.prof).held = none := by
    rw [Commit.turnOver_unheld _ hc, Commit.refill_eq]
    exact ⟨rfl, hc⟩
  have shut (c : Commit) (hc : c.held = none) : (c.close .drain).queues = c.queues ∧ (c.close .drain).held = none := by
    unfold Commit.close
    split <;> exact ⟨rfl, hc⟩
  obtain ⟨t1, t2⟩ := turn s.com h
  unfold State.settledCom
  dsimp only
  split
  · obtain ⟨c1, c2⟩ := shut _ t2
    obtain ⟨u1, u2⟩ := turn _ c2
    exact ⟨u1.trans (c1.trans t1), u2⟩
  · exact ⟨t1, t2⟩

/-! ## Confirmation (R29, R49) -/

theorem confirmRings_get (p : Profile) (mask : Four Bool) (placed : Four Seq) (rings : Four ClassRing) (c : ClassId) :
    (confirmRings p mask placed rings).get c =
      if (mask.get c && (p.classes.get c).configured) = true then (rings.get c).confirm (placed.get c) else rings.get c := by
  rw [confirmRings, Four.get_build]

theorem ClassRing.confirm_old {r : ClassRing} {q : Seq} (hp : r.present = true) (hn : newer q r.committed = false) : r.confirm q = r := by
  simp [ClassRing.confirm, hp, hn]

theorem ClassRing.confirm_newer {r : ClassRing} {q : Seq} (hp : r.present = true) (hn : newer q r.committed = true) :
    r.confirm q = { r with committed := q, staged := r.staged - (q - (r.committed + 1#32) + 1#32).toNat } := by
  simp [ClassRing.confirm, hp, hn, ClassRing.firstUncommitted]

theorem ClassRing.confirm_first {r : ClassRing} {q : Seq} (hp : r.present = false) :
    r.confirm q = { r with committed := q, present := true, staged := r.staged - (q + 1#32).toNat } := by
  simp [ClassRing.confirm, hp, ClassRing.firstUncommitted]

theorem verifyEnd_page {f : InFlight} (hj : s.flash.currentJob = some (.pageVerify f.block f.page)) (hi : s.com.inflight = some f) :
    exec .verifyEnd s = .next (s.finishJob.pageVerified (flashPage s.flash.cells f.block f.page == pageWords f)) := by
  simp only [exec, execVerifyEnd, hj, State.pageSource, hi]

/-- Settles O32. -/
theorem matchingVerifyConfirmsPage : Obligations.MatchingVerifyConfirmsPage := by
  unfold Obligations.MatchingVerifyConfirmsPage
  intro s f hd hi hm
  obtain ⟨hj, hs⟩ := hd
  have hstep : exec .verifyEnd s = .next (({ s with flash := { s.flash with current := none } } : State).confirmPage f).settle := by
    rw [verifyEnd_page hj hi, finishJob_alone hs, hm]
    simp [State.pageVerified, hi]
  have hdirty : ((({ s with flash := { s.flash with current := none } } : State).confirmPage f).settle).mir.dirty = true := settle_dirty rfl
  refine ⟨_, hstep, ⟨?_, fun c hc => settle_causesKept _ c hc⟩, by simp [State.confirmPage], by simp [State.confirmPage],
    by simp [State.confirmPage], by simp [State.confirmPage], fun hb => by simp [State.confirmPage, hb],
    fun hb => by simp [State.confirmPage, hb], by simp [State.confirmPage], hdirty, fun c => ?_⟩
  · rw [settle_frame_eq]
    simp [State.confirmPage]
  · have hr : (({ s with flash := { s.flash with current := none } } : State).confirmPage f).settle.stg.rings =
        confirmRings s.prof f.buf.mask f.buf.placed s.stg.rings := by simp [State.confirmPage]
    rw [hr, confirmRings_get]
    refine ⟨fun hn => ?_, fun hm hc => ⟨fun hp hn => ?_, fun hp hn => ?_, fun hp => ?_⟩⟩
    · rw [if_neg (by rcases hn with hn | hn <;> simp [hn])]
    · rw [if_pos (by simp [hm, hc]), ClassRing.confirm_old hp hn]
    · rw [if_pos (by simp [hm, hc]), ClassRing.confirm_newer hp hn]
    · rw [if_pos (by simp [hm, hc]), ClassRing.confirm_first hp]

/-! ## Failure (R50 to R53) -/

theorem abandonBlock_outbox {rs : List Record} (block : Nat) (h : rs <+: s.stg.outbox) : rs <+: (s.abandonBlock block).stg.outbox :=
  h.trans (offer_outbox _ s)

theorem failPage_outbox (f : InFlight) (s : State) :
    (s.offer (journalEvent s 1 f.block f.page)).stg.outbox <+: (s.failPage f).stg.outbox := by
  unfold State.failPage
  dsimp only
  split
  · exact abandonBlock_outbox _ (List.prefix_refl _)
  · exact List.prefix_refl _

/-- A failed page stays IN-FLIGHT as a retry; the block is abandoned at page 0 or at its second failure. -/
theorem failPage_com (f : InFlight) (s : State) : (s.failPage f).com = { s.com with
    headPage := if f.page = 0 ∨ 1 ≤ s.com.failed then 16 else s.com.headPage + 1
    failed := s.com.failed + 1
    inflight := some { f with waiting := true }
    skip := if f.page = 0 ∨ 1 ≤ s.com.failed then joinSkip s.com.skip f.block else s.com.skip } := by
  by_cases h : f.page = 0 ∨ 1 ≤ s.com.failed <;> simp [State.failPage, State.abandonBlock, h]

theorem failPage_rings (f : InFlight) (s : State) : (s.failPage f).stg.rings = s.stg.rings := by
  have offered (r : Record) (u : State) : (u.offer r).stg.rings = u.stg.rings := by rw [State.offer_eq]
  unfold State.failPage State.abandonBlock
  dsimp only
  split
  · exact (offered _ _).trans (offered _ _)
  · exact offered _ _

theorem failPage_dirty (f : InFlight) (s : State) : (s.failPage f).mir.dirty = true := by
  unfold State.failPage State.abandonBlock
  dsimp only
  split <;> rfl

/-- What follows a failed page once the buffers have settled, with no candidate held. -/
theorem failPage_settled (f : InFlight) (hh : s.com.held = none) :
    (s.failPage f).settle.com.inflight = some { f with waiting := true } ∧ (s.failPage f).settle.com.nextPage = s.com.nextPage ∧
    (s.failPage f).settle.com.queues = s.com.queues ∧ (s.failPage f).settle.com.failed = s.com.failed + 1 ∧
    (s.failPage f).settle.com.headPage = (if f.page = 0 ∨ 1 ≤ s.com.failed then 16 else s.com.headPage + 1) ∧
    (s.failPage f).settle.com.skip = (if f.page = 0 ∨ 1 ≤ s.com.failed then joinSkip s.com.skip f.block else s.com.skip) := by
  have hq := settledCom_queues (s := s.failPage f) (by rw [failPage_com]; exact hh)
  have hc := failPage_com f s
  refine ⟨?_, ?_, ?_, ?_, ?_, ?_⟩
  · simp [hc]
  · simp [hc]
  · rw [settle_com]
    exact hq.1.trans (by rw [hc])
  · simp [hc]
  · simp [hc]
  · simp [hc]

/-- JOURNAL-EVENT 1 joins an outbox with room, and the events that follow stand behind it. -/
theorem failPage_event (f : InFlight) (h : s.stg.outbox.length < 8) :
    ∃ more, (s.failPage f).settle.stg.outbox = s.stg.outbox ++ journalEvent s 1 f.block f.page :: more := by
  obtain ⟨more, hm⟩ := (failPage_outbox f s).trans (settle_outbox (s.failPage f))
  rw [State.offer_room _ s h] at hm
  exact ⟨more, by rw [← hm]; simp⟩

/-- Passing time leaves of the commit side all but the flush deadline timer. -/
theorem pass_com (n : Nat) (s : State) : (s.pass n).com = { s.com with filling := (s.pass n).com.filling } := by
  unfold State.pass
  split <;> rfl

/-- An operation cut off leaves all but the flash contents. -/
theorem cutOff_eq (j : Job) (s : State) : s.cutOff j =
    { s with flash := { s.flash with cells := (s.cutOff j).flash.cells }, free := (s.cutOff j).free } := by
  unfold State.cutOff
  split <;> rfl

@[simp] theorem pass_suspended (n : Nat) (s : State) : (s.pass n).flash.suspended = s.flash.suspended := by
  unfold State.pass
  split <;> rfl

/-- A journal PROGRAM that runs to its limit fails its page. -/
theorem flashTimeout_page {f : InFlight} {r : Running} (hr : s.flash.current = some r) (hj : r.job = .pageProgram f.block f.page)
    (hs : s.flash.suspended = none) (hi : s.com.inflight = some f) (ha : r.abortReq = false) :
    exec .flashTimeout s = .next ((({ (s.pass (2 - r.time)).cutOff r.job with
      flash := { ((s.pass (2 - r.time)).cutOff r.job).flash with current := none, journal := [] } } : State).failPage f).settle) := by
  have hsu : ((s.pass (2 - r.time)).cutOff r.job).flash.suspended = none := by
    rw [cutOff_eq]
    simpa using hs
  have hin : (s.pass (2 - r.time)).com.inflight = some f := by rw [pass_com]; exact hi
  have hrun : s.flash.running = some r := by simp [Flash.running, hr, ha]
  simp only [exec, execFlashTimeout, hrun, hj, Job.limit, State.timedOut]
  rw [hj] at hsu
  rw [finishJob_alone hsu]
  simp [State.pageTimedOut, hin]

/-- Settles O33. -/
theorem failedPageIsRetried : Obligations.FailedPageIsRetried := by
  unfold Obligations.FailedPageIsRetried
  intro s f hi hh c u hc
  obtain ⟨v, hstep, hcom, hstg, hpow, hcur, hjour⟩ : ∃ v : State, exec c s = .next (v.failPage f).settle ∧
      v.com = { s.com with filling := v.com.filling } ∧ v.stg = s.stg ∧ v.stamp = u.stamp ∧ v.flash.current = none ∧
      (c = .flashTimeout → v.flash.journal = []) := by
    rcases hc with ⟨rfl, hu, ⟨hj, hs⟩, hm⟩ | ⟨rfl, ⟨hj, hs⟩, r, hr, ha, rfl⟩
    · refine ⟨{ s with flash := { s.flash with current := none } }, ?_, rfl, rfl, by rw [hu]; rfl, rfl, by simp⟩
      rw [verifyEnd_page hj hi, finishJob_alone hs, beq_false_of_ne hm]
      simp [State.pageVerified, hi]
    · have hj' : r.job = .pageProgram f.block f.page := by simpa [Flash.currentJob, hr] using hj
      refine ⟨_, flashTimeout_page hr hj' hs hi ha, ?_, by simp, by simp [State.stamp], rfl, fun _ => rfl⟩
      simp only [State.cutOff_frame]
      exact pass_com _ s
  obtain ⟨h1, h2, h3, h4, h5, h6⟩ := failPage_settled (s := v) f (by rw [hcom]; exact hh)
  rw [hcom] at h2 h3 h4 h5 h6
  dsimp only at h2 h3 h4 h5 h6
  refine ⟨_, hstep, h1, h2, h3, by simp [failPage_rings, hstg], h4, settle_dirty (failPage_dirty f v), fun hc => by simpa using hjour hc, by simpa using hcur,
    fun hp hf => ?_, fun hp => ?_, fun hl => ?_⟩
  · rw [h5, h6, if_neg (by omega), if_neg (by omega)]
    exact ⟨rfl, rfl⟩
  · rw [h5, h6, if_pos hp, if_pos hp]
    exact ⟨rfl, fun hl hn => by simp [joinSkip, hl, hn], fun hl => by simp [joinSkip, Nat.not_lt.mpr hl]⟩
  · have he := failPage_event (s := v) f (by rw [hstg]; exact hl)
    rw [hstg, journalEvent, hpow] at he
    exact he

end Pages
end Sys2Proof.Machine

/-! PROOFS. A page goes in flight at the head (R47, R48, R50, R54). -/

namespace Sys2Proof.Machine
open Sys2Proof Sys2Proof.Machine Sys2Proof.Machine.Claims

section Launch

variable {c : Commit} {s : State}

theorem Commit.moveHead_room (h : c.headPage < 16) : c.moveHead = c := by simp [Commit.moveHead, h]

theorem Commit.moveHead_full (h : 16 ≤ c.headPage) : c.moveHead = { c with
    headBlock := c.newHead, headPage := 0, ahead := c.ahead - 1, failed := 0
    skip := c.skip.filter (fun x => decide (x ∉ passedOver c.newHead 1792 c.headBlock))
    upkeepHeld := c.upkeepHeld && decide ((c.skip.filter (fun x => decide (x ∉ passedOver c.newHead 1792 c.headBlock))).length = c.skip.length) } := by
  simp [Commit.moveHead, Nat.not_lt.mpr h]

/-- A filter keeps the length of a list where every entry passes. -/
theorem filter_length_eq_iff {α : Type} (p : α → Bool) (xs : List α) : (xs.filter p).length = xs.length ↔ ∀ x ∈ xs, p x = true :=
  List.length_filter_eq_length_iff

/-- The head after a page has gone in flight: only where the head page was at 16 has it moved. -/
theorem Commit.moveHead_fields (c : Commit) : c.moveHead = { c with
    headBlock := c.moveHead.headBlock, headPage := c.moveHead.headPage, ahead := c.moveHead.ahead, failed := c.moveHead.failed
    skip := c.moveHead.skip, upkeepHeld := c.moveHead.upkeepHeld } := by
  unfold Commit.moveHead
  dsimp only
  split <;> rfl

theorem Commit.stalled_flying {f : InFlight} (h : c.inflight = some f) (hw : f.waiting = false) : c.stalled = false := by
  simp [Commit.stalled, Commit.mustProgram, h, hw]

/-- Settling without a stall to note. -/
theorem settle_unstalled (h : s.settledCom.stalled = false ∨ s.settledCom.full = true) : s.settle = { s with com := s.settledCom } := by
  rw [State.settle_eq]
  exact noteStall_quiet h

/-- With a page just gone in flight settling notes no stall. -/
theorem settle_flying {f : InFlight} (h : s.com.inflight = some f) (hw : f.waiting = false) : s.settle = { s with com := s.settledCom } :=
  settle_unstalled (.inl (Commit.stalled_flying ((settledCom_sameHead s).inflight.trans h) hw))

/-- Commit resumes (R54): the flag is clear, and a commit that was full reports it. -/
theorem noteResume_spec (s : State) : ∃ o l d a, s.noteResume = { s with
      stg := { s.stg with outbox := o, lost := l }
      com := { s.com with full := false }
      mir := { s.mir with dirty := d, attention := a } } ∧
    (s.com.full = true → Offered s s.noteResume (journalEvent s 5 s.com.headBlock s.com.headPage)) ∧
    (s.com.full = false → o = s.stg.outbox ∧ l = s.stg.lost ∧ a = s.mir.attention) ∧ (s.mir.dirty = true → d = true) ∧
    CausesKept s s.noteResume [.full, .lost] := by
  cases hf : s.com.full with
  | false =>
    have he : s.noteResume = s := by simp [State.noteResume, hf]
    refine ⟨s.stg.outbox, s.stg.lost, s.mir.dirty, s.mir.attention, ?_, by simp, fun _ => ⟨rfl, rfl, rfl⟩, id, causesKept_of_eq (by rw [he])⟩
    rw [he, ← hf]
  | true =>
    have he : s.noteResume = ({ s with com := { s.com with full := false }, mir := { s.mir with dirty := true } } : State).offerNow 0xF9#8
        false [numWord 5, numWord s.com.headBlock, numWord s.com.headPage] := by
      simp [State.noteResume, hf, State.mark, State.offerJournalEvent]
    have ho := offerNow_offered 0xF9#8 false [numWord 5, numWord s.com.headBlock, numWord s.com.headPage]
      ({ s with com := { s.com with full := false }, mir := { s.mir with dirty := true } } : State)
    have hq := offerNow_eq 0xF9#8 false [numWord 5, numWord s.com.headBlock, numWord s.com.headPage]
      ({ s with com := { s.com with full := false }, mir := { s.mir with dirty := true } } : State)
    rw [← he] at ho hq
    have hs := ho.before (s := s) (bs := []) (cs := []) rfl rfl (causesKept_of_eq rfl) (by simp)
    exact ⟨_, _, _, _, hq, fun _ => hs, by simp, fun _ => rfl, hs.causesKept.mono (by simp)⟩

/-- The CLOSED buffers that stay once a page has gone in flight: a retry takes none. -/
def Commit.left (retry : Bool) (c : Commit) : List ClosedBuf := if retry then c.closed else c.closed.tail

/-- The page that goes in flight next. -/
theorem Commit.launchNext_eq {b : ClosedBuf} {retry : Bool} (h : c.inflight = none ∧ retry = false ∧ c.closed.head? = some b ∨
      ∃ f, c.inflight = some f ∧ f.waiting = true ∧ f.buf = b ∧ retry = true) :
    c.mustProgram = true ∧ c.launchNext = Commit.launch b retry { c with closed := c.left retry } := by
  rcases h with ⟨hi, rfl, hc⟩ | ⟨f, hi, hw, rfl, rfl⟩
  · obtain ⟨rest, hc⟩ := List.head?_eq_some_iff.mp hc
    simp [Commit.mustProgram, Commit.launchNext, hi, hc, Commit.left]
  · simp only [Commit.mustProgram, Commit.launchNext, hi, hw, Commit.left, if_true]
    exact ⟨trivial, by rw [← hi]⟩

/-- The commit side with a page gone in flight at the head that stands there. -/
def Commit.flying (b : ClosedBuf) (retry : Bool) (c : Commit) : Commit :=
  { c.moveHead with
    closed := c.left retry, full := false, nextPage := c.nextPage + 1#32
    inflight := some { buf := b, pageSeq := c.nextPage, block := c.moveHead.headBlock, page := c.moveHead.headPage, retry := retry,
                       waiting := false } }

theorem Commit.launch_flying (b : ClosedBuf) (retry : Bool) (c : Commit) :
    { Commit.launch b retry { c with closed := c.left retry } with full := false } = c.flying b retry := by
  by_cases h : c.headPage < 16
  · simp [Commit.launch, Commit.flying, Commit.moveHead, h]
  · simp [Commit.launch, Commit.flying, Commit.moveHead, h, Commit.newHead]

theorem Commit.launch_head (b : ClosedBuf) (retry : Bool) (l : List ClosedBuf) (c : Commit) :
    (Commit.launch b retry { c with closed := l }).headBlock = c.moveHead.headBlock ∧
    (Commit.launch b retry { c with closed := l }).headPage = c.moveHead.headPage ∧
    (Commit.launch b retry { c with closed := l }).full = c.full := by
  by_cases h : c.headPage < 16 <;> simp [Commit.launch, Commit.moveHead, h, Commit.newHead]

/-- The state with the page in flight, before a full commit resumes. -/
def State.launched (b : ClosedBuf) (retry : Bool) (s : State) : State :=
  ({ s with com := Commit.launch b retry { s.com with closed := s.com.left retry } } : State).markIf (decide (16 ≤ s.com.headPage))

/-- What going in flight does: the page's jobs are offered, a commit that was full resumes, and the buffers settle. -/
theorem goInFlight_eq (ha : Awake s) (hh : s.com.headAvailable = true) {b : ClosedBuf} {retry : Bool}
    (hb : s.com.inflight = none ∧ retry = false ∧ s.com.closed.head? = some b ∨
      ∃ f, s.com.inflight = some f ∧ f.waiting = true ∧ f.buf = b ∧ retry = true) :
    ∃ o l d a, exec .goInFlight s = .next { s with
        stg := { s.stg with outbox := o, lost := l }
        com := ({ s with com := s.com.flying b retry } : State).settledCom
        flash := { s.flash with journal := [.pageProgram s.com.moveHead.headBlock s.com.moveHead.headPage,
          .pageVerify s.com.moveHead.headBlock s.com.moveHead.headPage] }
        mir := { s.mir with dirty := d, attention := a } } ∧
      (s.com.full = true → Offered s { s with stg := { s.stg with outbox := o, lost := l }, mir := { s.mir with attention := a } }
        (journalEvent s 5 s.com.moveHead.headBlock s.com.moveHead.headPage)) ∧
      (s.com.full = false → o = s.stg.outbox ∧ l = s.stg.lost ∧ a = s.mir.attention) ∧ (16 ≤ s.com.headPage → d = true) ∧
      CausesKept s { s with mir := { s.mir with attention := a } } [.full, .lost] := by
  obtain ⟨hm, hl⟩ := Commit.launchNext_eq hb
  have hstep : exec .goInFlight s = .next (((s.launched b retry).noteResume).offerPage).settle := by
    simp [exec, execGoInFlight, working_awake ha, commits_awake ha, hm, hh, hl, State.launched]
  obtain ⟨h1, h2, h3⟩ := Commit.launch_head b retry (s.com.left retry) s.com
  obtain ⟨o, l, d, a, hr, hfull, hnot, hd, hk⟩ := noteResume_spec (s.launched b retry)
  have hcom : ({ (s.launched b retry).com with full := false } : Commit) = s.com.flying b retry := Commit.launch_flying b retry s.com
  rw [hcom] at hr
  refine ⟨o, l, d, a, ?_, fun hf => ?_, fun hf => ?_, fun hp => hd (by simp [State.launched, State.markIf, hp]), ?_⟩
  · have hp : ((s.launched b retry).noteResume).offerPage = { (s.launched b retry).noteResume with flash := { s.flash with journal :=
        [.pageProgram s.com.moveHead.headBlock s.com.moveHead.headPage, .pageVerify s.com.moveHead.headBlock s.com.moveHead.headPage] } } := by
      rw [hr]
      rfl
    rw [hstep, hp, hr, settle_flying rfl rfl]
    rfl
  · have ho := hfull (h3.trans hf)
    rw [hr] at ho
    have hrec : journalEvent (s.launched b retry) 5 (s.launched b retry).com.headBlock (s.launched b retry).com.headPage =
        journalEvent s 5 s.com.moveHead.headBlock s.com.moveHead.headPage := by
      rw [← h1, ← h2]
      rfl
    rw [hrec] at ho
    exact ho
  · exact hnot (h3.trans hf)
  · rw [hr] at hk
    exact hk

end Launch

/-- Settles O29. -/
theorem pageGoesInFlightAtHead : Obligations.PageGoesInFlightAtHead := by
  unfold Obligations.PageGoesInFlightAtHead
  intro s ha hh b retry hb
  obtain ⟨o, l, d, a, hstep, hfull, hnot, hd, hk⟩ := goInFlight_eq ha hh hb
  have hsame := settledCom_sameHead { s with com := s.com.flying b retry }
  have hahead : ({ s with com := s.com.flying b retry } : State).settledCom.ahead = s.com.moveHead.ahead := hsame.ahead
  have hskip : ({ s with com := s.com.flying b retry } : State).settledCom.skip = s.com.moveHead.skip := hsame.skip
  have hfailed : ({ s with com := s.com.flying b retry } : State).settledCom.failed = s.com.moveHead.failed := hsame.failed
  have hheld : ({ s with com := s.com.flying b retry } : State).settledCom.upkeepHeld = s.com.moveHead.upkeepHeld := hsame.upkeepHeld
  have hmoved (h : 16 ≤ s.com.headPage) := Commit.moveHead_full h
  have hstays (h : s.com.headPage < 16) := Commit.moveHead_room h
  refine ⟨_, hstep, ⟨rfl, hk⟩, rfl, s.com.moveHead.headBlock, s.com.moveHead.headPage, hsame.inflight, hsame.nextPage, hsame.headBlock,
    hsame.headPage, rfl, fun hp => ?_, fun hp => ?_, fun hp => ?_, hsame.full, fun hf => hfull hf, fun hf => ?_, hsame.closed,
    fun hn hf hdc => ?_, fun hn hf => ?_⟩
  · exact ⟨by rw [hstays hp], by rw [hstays hp], hahead.trans (by rw [hstays hp]), hskip.trans (by rw [hstays hp])⟩
  · exact ⟨hfailed.trans (by rw [hstays hp]), hheld.trans (by rw [hstays hp])⟩
  · refine ⟨by rw [hmoved hp], by rw [hmoved hp], hahead.trans (by rw [hmoved hp]), hfailed.trans (by rw [hmoved hp]), hd hp,
      hskip.trans (by rw [hmoved hp]), fun hall => hheld.trans ?_, fun hex => hheld.trans ?_⟩
    · have hlen := (filter_length_eq_iff (fun x => decide (x ∉ passedOver s.com.newHead 1792 s.com.headBlock)) s.com.skip).mpr
        (fun x hx => by simpa [hmoved hp] using hall x hx)
      rw [hmoved hp]
      dsimp only
      rw [hlen]
      simp
    · have hlen : ¬ (s.com.skip.filter (fun x => decide (x ∉ passedOver s.com.newHead 1792 s.com.headBlock))).length = s.com.skip.length := by
        rw [filter_length_eq_iff]
        obtain ⟨x, hx, hm⟩ := hex
        exact fun hall => by simpa [hmoved hp] using absurd hm (by simpa [hmoved hp] using hall x hx)
      rw [hmoved hp]
      dsimp only
      rw [decide_eq_false hlen, Bool.and_false]
  · obtain ⟨ho, hl, ha⟩ := hnot hf
    exact ⟨by rw [ho, hl], ha⟩
  · have hm := Commit.moveHead_fields s.com
    have hset : ({ s with com := s.com.flying b retry } : State).settledCom = s.com.flying b retry := by
      refine settledCom_filling ?_ ?_ ?_
      · simp only [Commit.flying]
        rw [hm]
        exact hn
      · simp only [Commit.flying]
        rw [hm]
        exact hf
      · have hdc' : ({ s with com := s.com.flying b retry } : State).drainClose = s.drainClose := by
          simp only [State.drainClose, Commit.flying, Commit.drained, Commit.fillingHolds]
          rw [hm]
        exact hdc'.trans hdc
    dsimp only
    rw [hset]
    simp only [Commit.flying]
    conv => lhs; rw [hm]
    rfl
  · have hm := Commit.moveHead_fields s.com
    have hno : (s.com.flying b retry).filling = none := by
      simp only [Commit.flying]
      rw [hm]
      exact hf
    have hset := settledCom_unheld_none (s := { s with com := s.com.flying b retry })
      (by simp only [Commit.flying]; rw [hm]; exact hn) hno
    have hused : (s.com.flying b retry).buffersUsed = (s.com.left retry).length + 1 := by
      rw [Commit.buffersUsed_of_none hno]
      rfl
    dsimp only
    rw [hset]
    dsimp only
    refine ⟨?_, fun hl => ?_, fun hl => ?_⟩
    · rw [Commit.refill_eq]
      rfl
    · rw [Commit.refill_free hno (by rw [hused]; simp [Commit.left, hl])]
    · rw [Commit.refill_used (by rw [hused]; have := List.length_pos_iff.mpr hl; simp only [Commit.left]; omega)]
      exact hno

end Sys2Proof.Machine

/-! PROOFS. The words of a page in flight classify as VALID (R48, R185, R191, R194). -/

namespace Sys2Proof.Machine
open Sys2Proof Sys2Proof.Machine Sys2Proof.Machine.Claims

section Page

/-! ## Header word 5 (R194) -/

theorem maskBits_eq (m : Four Bool) : maskBits m = m.c0.toNat + m.c1.toNat * 2 + m.c2.toNat * 4 + m.c3.toNat * 8 := by
  simp [maskBits, flag_eq]

theorem CloseCause.code_lt (k : CloseCause) : k.code < 4 := by cases k <;> decide

variable (b : ClosedBuf) (retry : Bool)

theorem headerFlags_eq (h : b.recs.length ≤ 14) : headerFlags b retry = b.recs.length + maskBits b.mask * 16 + b.cause.code * 256 +
    retry.toNat * 1024 := by
  have h0 := Bool.toNat_le b.mask.c0
  have h1 := Bool.toNat_le b.mask.c1
  have h2 := Bool.toNat_le b.mask.c2
  have h3 := Bool.toNat_le b.mask.c3
  have hm := maskBits_eq b.mask
  have hc := b.cause.code_lt
  simp only [headerFlags, field_eq, flag_eq]
  omega

theorem headerFlags_lt (h : b.recs.length ≤ 14) : headerFlags b retry < 2 ^ 11 := by
  have h0 := Bool.toNat_le b.mask.c0
  have h1 := Bool.toNat_le b.mask.c1
  have h2 := Bool.toNat_le b.mask.c2
  have h3 := Bool.toNat_le b.mask.c3
  have hm := maskBits_eq b.mask
  have hc := b.cause.code_lt
  have hr := Bool.toNat_le retry
  rw [headerFlags_eq b retry h]
  omega

/-- Header word 5 with a check in its upper half. -/
def flagsWord (b : ClosedBuf) (retry : Bool) (check : Sum16) : Word := BitVec.ofNat 32 (headerFlags b retry + field 16 16 check.toNat)

variable (check : Sum16)

theorem flagsWord_count (h : b.recs.length ≤ 14) : bits (flagsWord b retry check) 0 4 = b.recs.length := by
  have hl := headerFlags_lt b retry h
  have hk := check.isLt
  rw [flagsWord, bits_ofNat, field_eq]
  rw [headerFlags_eq b retry h] at hl ⊢
  omega

theorem flagsWord_mask (h : b.recs.length ≤ 14) : (⟨bitAt (flagsWord b retry check) 4, bitAt (flagsWord b retry check) 5,
    bitAt (flagsWord b retry check) 6, bitAt (flagsWord b retry check) 7⟩ : Four Bool) = b.mask := by
  have hl := headerFlags_lt b retry h
  have hk := check.isLt
  have hm := maskBits_eq b.mask
  have hbit (i : Nat) (x : Bool) (hx : (headerFlags b retry + check.toNat % 2 ^ 16 * 2 ^ 16) % 2 ^ 32 / 2 ^ i % 2 = x.toNat) :
      bitAt (flagsWord b retry check) i = x := by
    rw [flagsWord, bitAt_ofNat, field_eq, hx]
    cases x <;> rfl
  rw [headerFlags_eq b retry h] at hl hbit
  have h0 := Bool.toNat_le b.mask.c0
  have h1 := Bool.toNat_le b.mask.c1
  have h2 := Bool.toNat_le b.mask.c2
  have h3 := Bool.toNat_le b.mask.c3
  rw [hbit 4 b.mask.c0 (by omega), hbit 5 b.mask.c1 (by omega), hbit 6 b.mask.c2 (by omega), hbit 7 b.mask.c3 (by omega)]

theorem flagsWord_ne_erased (h : b.recs.length ≤ 14) : flagsWord b retry check ≠ erasedWord := by
  have hl := headerFlags_lt b retry h
  have hk := check.isLt
  intro he
  have hn := congrArg BitVec.toNat he
  rw [flagsWord, BitVec.toNat_ofNat, field_eq] at hn
  simp only [erasedWord, BitVec.toNat_ofNat] at hn
  omega

end Page

/-! ## The records of a page (R185) -/

section Records

/-- A packed record as long as its opening word says. -/
def Placed.Packed (r : Placed) : Prop := r.words.length = 4 + lengthOf (wordAt r.words 0) ∧ lengthOf (wordAt r.words 0) ≤ 12

theorem flatMap_words_length (rs : List Placed) : (rs.flatMap (·.words)).length = placedWords rs := by
  simp [placedWords, List.length_flatMap]

/-- The walk over packed records ends behind the last. -/
theorem walkRecords_packed (rs : List Placed) (pre post : List Word) (hr : ∀ r ∈ rs, r.Packed) (hl : pre.length + placedWords rs ≤ 64) :
    walkRecords (pre ++ rs.flatMap (·.words) ++ post) rs.length pre.length = some (pre.length + placedWords rs) := by
  induction rs generalizing pre with
  | nil =>
    simp only [placedWords, List.map_nil, List.sum_nil] at hl ⊢
    simp [walkRecords, show pre.length ≤ 64 by omega]
  | cons r rs ih =>
    obtain ⟨hlen, h12⟩ := hr r (by simp)
    have hsum : placedWords (r :: rs) = r.words.length + placedWords rs := by simp [placedWords]
    have hword : wordAt (pre ++ (r :: rs).flatMap (·.words) ++ post) pre.length = wordAt r.words 0 := by
      have hpos : 0 < r.words.length := by omega
      simp only [wordAt, List.getD_eq_getElem?_getD, List.flatMap_cons, List.append_assoc]
      rw [List.getElem?_append_right (Nat.le_refl _), Nat.sub_self, List.getElem?_append_left hpos]
    rw [List.length_cons, walkRecords, hword, if_pos ⟨by omega, h12⟩]
    have hnext := ih (pre ++ r.words) (fun x hx => hr x (by simp [hx])) (by rw [List.length_append]; omega)
    rw [List.length_append, hlen, ← Nat.add_assoc] at hnext
    rw [show pre ++ (r :: rs).flatMap (·.words) ++ post = pre ++ r.words ++ rs.flatMap (·.words) ++ post by simp, hnext, hsum, hlen]
    congr 1
    omega

end Records

/-! ## The page (R48, R194) -/

section Words

variable (f : InFlight)

/-- The check of a page in flight. -/
def InFlight.check (f : InFlight) : Sum16 :=
  pageCheck (f.pageSeq :: f.buf.placed.toList) (BitVec.ofNat 32 (headerFlags f.buf f.retry)) (pageRecords f.buf)

/-- The header words 0 to 4 of a page in flight. -/
def InFlight.lead (f : InFlight) : List Word := f.pageSeq :: f.buf.placed.toList

variable {f} (h1 : 1 ≤ f.buf.recs.length) (h14 : f.buf.recs.length ≤ 14) (h58 : placedWords f.buf.recs ≤ 58)

theorem lead_length : f.lead.length = 5 := rfl

theorem pageWords_eq : pageWords f = f.lead ++ [flagsWord f.buf f.retry f.check] ++ pageRecords f.buf ++
    List.replicate (58 - placedWords f.buf.recs) erasedWord := by
  have hl : (f.lead ++ [flagsWord f.buf f.retry f.check] ++ pageRecords f.buf).length = 6 + placedWords f.buf.recs := by
    rw [List.length_append, List.length_append, lead_length, pageRecords, flatMap_words_length]
    simp
  show f.lead ++ [flagsWord f.buf f.retry f.check] ++ pageRecords f.buf ++ List.replicate
    (64 - (f.lead ++ [flagsWord f.buf f.retry f.check] ++ pageRecords f.buf).length) erasedWord = _
  rw [hl, show 64 - (6 + placedWords f.buf.recs) = 58 - placedWords f.buf.recs by omega]

theorem pageWords_flags : wordAt (pageWords f) 5 = flagsWord f.buf f.retry f.check := by
  rw [pageWords_eq]
  rfl

theorem pageWords_lead : (pageWords f).take 5 = f.lead := by
  rw [pageWords_eq, List.append_assoc, List.append_assoc]
  exact List.take_left' lead_length

theorem pageWords_records : ((pageWords f).drop 6).take (placedWords f.buf.recs) = pageRecords f.buf := by
  have h6 : (f.lead ++ [flagsWord f.buf f.retry f.check]).length = 6 := rfl
  rw [pageWords_eq, List.append_assoc, List.drop_left' h6]
  exact List.take_left' (flatMap_words_length _)

include h58 in
theorem pageWords_length : (pageWords f).length = 64 := by
  rw [pageWords_eq, List.length_append, List.length_append, List.length_append, lead_length, pageRecords, flatMap_words_length]
  simp only [List.length_singleton, List.length_replicate]
  omega

include h1 h14 h58 in
theorem pageWords_valid (hr : ∀ r ∈ f.buf.recs, r.Packed) : pageValid (pageWords f) = true := by
  have hwalk := walkRecords_packed f.buf.recs (f.lead ++ [flagsWord f.buf f.retry f.check])
    (List.replicate (58 - placedWords f.buf.recs) erasedWord) hr (by
      rw [List.length_append, lead_length, List.length_singleton]
      omega)
  have hw : walkRecords (pageWords f) f.buf.recs.length 6 = some (6 + placedWords f.buf.recs) := by
    rw [pageWords_eq]
    exact hwalk
  have hlt : headerFlags f.buf f.retry < 2 ^ 16 := Nat.lt_trans (headerFlags_lt f.buf f.retry h14) (by decide)
  simp only [pageValid, pageWords_flags, flagsWord_count f.buf f.retry f.check h14, hw, and_self, h1, h14, if_true, pageWords_lead,
    Nat.add_sub_cancel_left, pageWords_records, beq_iff_eq]
  rw [flagsWord, extract_checked _ hlt]
  simp only [pageCheck, wordBytes_checked _ hlt, InFlight.check, InFlight.lead]

include h14 in
theorem headerOf_pageWords : headerOf (pageWords f) = { seq := f.pageSeq, placed := f.buf.placed, mask := f.buf.mask } := by
  have hm := flagsWord_mask f.buf f.retry f.check h14
  simp only [headerOf, pageWords_flags, hm]
  rw [pageWords_eq]
  rfl

include h14 in
theorem pageWords_not_erased : allErased (pageWords f) = false := by
  rw [allErased, List.all_eq_false]
  refine ⟨flagsWord f.buf f.retry f.check, ?_, by simpa using flagsWord_ne_erased f.buf f.retry f.check h14⟩
  rw [pageWords_eq]
  simp

theorem pageWords_seq : wordAt (pageWords f) 0 = f.pageSeq := by
  rw [pageWords_eq]
  rfl

end Words

/-- Settles O30. -/
theorem pageInFlightClassifiesValid : Obligations.PageInFlightClassifiesValid := by
  unfold Obligations.PageInFlightClassifiesValid
  intro f h1 h14 h58 hr
  refine ⟨pageWords_length h58, fun hs => ?_, fun hs => ?_⟩
  · have hs' : f.pageSeq ≠ erasedWord := hs
    simp [classifyPage, pageWords_not_erased h14, pageWords_seq, hs', pageWords_valid h1 h14 h58 hr, headerOf_pageWords h14]
  · simp [classifyPage, pageWords_not_erased h14, pageWords_seq, hs, erasedWord]

end Sys2Proof.Machine

/-! PROOFS. The scheduler finds a waiting record (R40 to R43). -/

namespace Sys2Proof.Machine
open Sys2Proof Sys2Proof.Machine Sys2Proof.Machine.Claims

section Scheduler

variable {s : State}

/-! ## The round position (R41) -/

/-- The next configured class above, or past the highest. -/
theorem nextClass_spec (p : Profile) (c : ClassId) :
    (c < (nextClass p c).1 ∧ (p.classes.get (nextClass p c).1).configured = true ∧
      (∀ j, c < j → j < (nextClass p c).1 → (p.classes.get j).configured = false) ∧ (nextClass p c).2 = false) ∨
    ((∀ j, c < j → (p.classes.get j).configured = false) ∧ (nextClass p c).1 = 0 ∧ (nextClass p c).2 = true) := by
  unfold nextClass
  dsimp only
  split
  next h1 =>
    simp only [Bool.and_eq_true, decide_eq_true_eq] at h1
    exact .inl ⟨h1.1, h1.2, by simp [Four.forall_fin], rfl⟩
  next h1 =>
    split
    next h2 =>
      simp only [Bool.and_eq_true, decide_eq_true_eq, not_and, Bool.not_eq_true] at h1 h2
      exact .inl ⟨h2.1, h2.2, by simpa [Four.forall_fin] using h1, rfl⟩
    next h2 =>
      split
      next h3 =>
        simp only [Bool.and_eq_true, decide_eq_true_eq, not_and, Bool.not_eq_true] at h1 h2 h3
        exact .inl ⟨h3.1, h3.2, by simpa [Four.forall_fin] using ⟨by simpa using h1, h2⟩, rfl⟩
      next h3 =>
        simp only [Bool.and_eq_true, decide_eq_true_eq, not_and, Bool.not_eq_true] at h1 h2 h3
        exact .inr ⟨by simpa [Four.forall_fin] using ⟨by simpa using h1, h2, h3⟩, rfl, rfl⟩

theorem move_moved (p : Profile) (alg : CommitAlg) (d : Sched) : Moved p alg d (d.move p alg) := by
  unfold Sched.move
  rcases nextClass_spec p d.pos with ⟨h1, h2, h3, h4⟩ | ⟨h1, h2, h3⟩
  · exact ⟨rfl, rfl, .inl ⟨h1, h2, h3, by simp [h4]⟩⟩
  · exact ⟨rfl, rfl, .inr ⟨h1, h2, by simp [h3]⟩⟩

theorem queued_configured {c : ClassId} (h : s.queued c = true) : (s.prof.classes.get c).configured = true := by
  simp only [State.queued, Bool.and_eq_true] at h
  exact h.1

theorem queued_cons {c : ClassId} (h : s.queued c = true) : ∃ q more, s.com.queues.get c = q :: more := by
  simp only [State.queued, Bool.and_eq_true, Bool.not_eq_true', List.isEmpty_eq_false_iff] at h
  exact List.exists_cons_of_ne_nil h.2

/-- A position below a configured class moves to one that is not above it. -/
theorem moved_below {alg : CommitAlg} {d e : Sched} {c : ClassId} (h : Moved s.prof alg d e) (hc : (s.prof.classes.get c).configured = true)
    (hd : d.pos < c) : d.pos < e.pos ∧ e.pos ≤ c ∧ e.credits = d.credits := by
  obtain ⟨-, -, ⟨h1, -, h3, h4⟩ | ⟨h1, -⟩⟩ := h
  · refine ⟨h1, Fin.not_lt.mp (fun hl => ?_), h4⟩
    simp [h3 c hd hl] at hc
  · simp [h1 c hd] at hc

/-! ## SP (R40) -/

theorem chooseSp_spec (h : ∃ c, s.queued c = true) : ∃ c, chooseSp s = some c ∧ s.queued c = true ∧ ∀ j, j < c → s.queued j = false := by
  unfold chooseSp
  by_cases h0 : s.queued 0 = true
  · exact ⟨0, by simp [h0], h0, by simp⟩
  · by_cases h1 : s.queued 1 = true
    · exact ⟨1, by simp [h0, h1], h1, by simp [Four.forall_fin, h0]⟩
    · by_cases h2 : s.queued 2 = true
      · exact ⟨2, by simp [h0, h1, h2], h2, by simp [Four.forall_fin, h0, h1]⟩
      · have h3 : s.queued 3 = true := by
          obtain ⟨c, hc⟩ := h
          match c, hc with
          | 0, hc => exact absurd hc h0
          | 1, hc => exact absurd hc h1
          | 2, hc => exact absurd hc h2
          | 3, hc => exact hc
        exact ⟨3, by simp [h0, h1, h2, h3], h3, by simp [Four.forall_fin, h0, h1, h2]⟩

/-! ## WRR (R41) -/

/-- The visits of WRR end at a class with a record and a credit. -/
def WrrEnds (s : State) (fuel : Nat) (d : Sched) : Prop :=
  ∃ f, chooseWrr s fuel d = (f, some f.pos) ∧ s.queued f.pos = true ∧ WrrFinds s d f

theorem wrrEnds_here {fuel : Nat} {d : Sched} (hq : s.queued d.pos = true) (hc : 0 < d.credits.get d.pos) : WrrEnds s (fuel + 1) d :=
  ⟨d, by simp [chooseWrr, hq, hc], hq, .here d hq hc⟩

theorem wrrEnds_past {fuel : Nat} {d : Sched} (h : ¬ (s.queued d.pos = true ∧ 0 < d.credits.get d.pos))
    (hn : WrrEnds s fuel (d.move s.prof .wrr)) : WrrEnds s (fuel + 1) d := by
  obtain ⟨f, hf, hq, hw⟩ := hn
  refine ⟨f, by rw [chooseWrr, if_neg h, hf], hq, .past d _ f ?_ (move_moved s.prof .wrr d) hw⟩
  by_cases hd : s.queued d.pos = true
  · exact .inr (Nat.eq_zero_of_not_pos (fun hc => h ⟨hd, hc⟩))
  · exact .inl (by simpa using hd)

/-- A waiting class with a credit is reached from below. -/
theorem wrrEnds_ahead {c : ClassId} (hq : s.queued c = true) (fuel : Nat) (d : Sched) (hp : d.pos ≤ c) (hc : 0 < d.credits.get c)
    (hf : c.val < fuel + d.pos.val) : WrrEnds s fuel d := by
  induction fuel generalizing d with
  | zero => exact absurd (Fin.le_def.mp hp) (by omega)
  | succ n ih =>
    by_cases h : s.queued d.pos = true ∧ 0 < d.credits.get d.pos
    · exact wrrEnds_here h.1 h.2
    · have hlt : d.pos < c := Nat.lt_of_le_of_ne hp (fun he => h (by rw [Fin.ext he]; exact ⟨hq, hc⟩))
      obtain ⟨h1, h2, h3⟩ := moved_below (move_moved s.prof .wrr d) (queued_configured hq) hlt
      have hv := Fin.lt_def.mp h1
      exact wrrEnds_past h (ih _ h2 (by rw [h3]; exact hc) (by omega))

/-- From any position WRR finds a class within the round and the next, which begins with a credit for every class. -/
theorem wrrEnds_round {c : ClassId} (hq : s.queued c = true) (hw : 1 ≤ (s.prof.classes.get c).weight) (fuel : Nat) (d : Sched)
    (hf : 8 ≤ fuel + d.pos.val) : WrrEnds s fuel d := by
  induction fuel generalizing d with
  | zero => omega
  | succ n ih =>
    by_cases h : s.queued d.pos = true ∧ 0 < d.credits.get d.pos
    · exact wrrEnds_here h.1 h.2
    · refine wrrEnds_past h ?_
      obtain ⟨-, -, ⟨h1, -⟩ | ⟨-, h2, h3⟩⟩ := move_moved s.prof .wrr d
      · have hv := Fin.lt_def.mp h1
        exact ih _ (by omega)
      · refine wrrEnds_ahead hq n _ (by rw [h2]; exact Fin.zero_le c) ?_ (by rw [h2]; simp only [Fin.val_zero]; omega)
        rw [h3, if_pos rfl, Four.get_map]
        exact hw

/-! ## DWRR (R42) -/

/-- The visits of DWRR end at a class with a record. -/
def DwrrEnds (s : State) (fuel : Nat) (d : Sched) : Prop :=
  ∃ f, chooseDwrr s fuel d = (f, some f.pos) ∧ s.queued f.pos = true ∧ DwrrFinds s d f

theorem dwrrEnds_here {fuel : Nat} {d : Sched} (hq : s.queued d.pos = true) : DwrrEnds s (fuel + 1) d := by
  cases hb : d.begun with
  | true => exact ⟨d, by simp [chooseDwrr, hb, hq], hq, .goesOn d hb hq⟩
  | false =>
    exact ⟨{ d with begun := true, deficits := d.deficits.set d.pos (d.deficits.get d.pos + (s.prof.classes.get d.pos).quantum) },
      by simp [chooseDwrr, hb, hq], hq, .begins d hb hq⟩

theorem dwrrEnds_past {fuel : Nat} {d : Sched} (h : ¬ s.queued d.pos = true)
    (hn : DwrrEnds s fuel (Sched.move s.prof .dwrr { d with deficits := d.deficits.set d.pos 0 })) : DwrrEnds s (fuel + 1) d := by
  obtain ⟨f, hf, hq, hw⟩ := hn
  refine ⟨f, by simp [chooseDwrr, h, hf], hq, .past d _ f (by simpa using h) (move_moved s.prof .dwrr _) hw⟩

theorem dwrrEnds_ahead {c : ClassId} (hq : s.queued c = true) (fuel : Nat) (d : Sched) (hp : d.pos ≤ c)
    (hf : c.val < fuel + d.pos.val) : DwrrEnds s fuel d := by
  induction fuel generalizing d with
  | zero => exact absurd (Fin.le_def.mp hp) (by omega)
  | succ n ih =>
    by_cases h : s.queued d.pos = true
    · exact dwrrEnds_here h
    · have hlt : d.pos < c := Nat.lt_of_le_of_ne hp (fun he => h (by rw [Fin.ext he]; exact hq))
      obtain ⟨h1, h2, -⟩ := moved_below (move_moved s.prof .dwrr { d with deficits := d.deficits.set d.pos 0 }) (queued_configured hq) hlt
      have hv := Fin.lt_def.mp h1
      exact dwrrEnds_past h (ih _ h2 (by dsimp only at hv; omega))

theorem dwrrEnds_round {c : ClassId} (hq : s.queued c = true) (fuel : Nat) (d : Sched) (hf : 8 ≤ fuel + d.pos.val) : DwrrEnds s fuel d := by
  induction fuel generalizing d with
  | zero => omega
  | succ n ih =>
    by_cases h : s.queued d.pos = true
    · exact dwrrEnds_here h
    · refine dwrrEnds_past h ?_
      obtain ⟨-, -, ⟨h1, -⟩ | ⟨-, h2, -⟩⟩ := move_moved s.prof .dwrr { d with deficits := d.deficits.set d.pos 0 }
      · have hv := Fin.lt_def.mp h1
        exact ih _ (by dsimp only at hv; omega)
      · exact dwrrEnds_ahead hq n _ (by rw [h2]; exact Fin.zero_le c) (by rw [h2]; simp only [Fin.val_zero]; omega)

/-- The choice made is carried out: the front record of the class's queue is fetched. -/
theorem schedulerChoice_fetches (hd : s.choiceDue = true) {d : Sched} {c : ClassId} (hc : chooseClass s = (d, some c)) {q : Seq} {more : List Seq}
    (hq : s.com.queues.get c = q :: more) : exec .schedulerChoice s = .next { s with
      com := { s.com with sched := d, fetching := some { cls := c, seq := q, alg := s.alg } }
      dram := { s.dram with waiting := s.dram.waiting.set .commit (some (.read (s.slotOff c q) 16)) } } := by
  simp only [exec, execSchedulerChoice, hd, if_true, hc, hq]
  rfl

end Scheduler

/-- Settles O26. -/
theorem schedulerFetchesWaitingRecord : Obligations.SchedulerFetchesWaitingRecord := by
  unfold Obligations.SchedulerFetchesWaitingRecord
  intro s ha hf hh hn h0 hw hex
  have hdue : s.choiceDue = true := by
    simp [State.choiceDue, working_awake ha, commits_awake ha, hf, hh, hn]
  obtain ⟨c, hc⟩ := hex
  cases halg : s.alg with
  | sp =>
    obtain ⟨k, hk, hq, hlow⟩ := chooseSp_spec ⟨c, hc⟩
    obtain ⟨q, more, hcons⟩ := queued_cons hq
    have hstep := schedulerChoice_fetches hdue (show chooseClass s = (s.com.sched, some k) by simp [chooseClass, halg, hk]) hcons
    rw [halg] at hstep
    exact ⟨s.com.sched, k, q, more, hq, hcons, fun _ => ⟨rfl, hlow⟩, by simp, by simp, hstep⟩
  | wrr =>
    obtain ⟨f, hf, hq, hfind⟩ := wrrEnds_round hc (hw c (queued_configured hc)) 9 s.com.sched (by omega)
    obtain ⟨q, more, hcons⟩ := queued_cons hq
    have hstep := schedulerChoice_fetches hdue (show chooseClass s = (f, some f.pos) by simp [chooseClass, halg, hf]) hcons
    rw [halg] at hstep
    exact ⟨f, f.pos, q, more, hq, hcons, by simp, fun _ => ⟨hfind, rfl⟩, by simp, hstep⟩
  | dwrr =>
    obtain ⟨f, hf, hq, hfind⟩ := dwrrEnds_round hc 9 s.com.sched (by omega)
    obtain ⟨q, more, hcons⟩ := queued_cons hq
    have hstep := schedulerChoice_fetches hdue (show chooseClass s = (f, some f.pos) by simp [chooseClass, halg, hf]) hcons
    rw [halg] at hstep
    exact ⟨f, f.pos, q, more, hq, hcons, by simp, by simp, fun _ => ⟨hfind, rfl⟩, hstep⟩

end Sys2Proof.Machine

/-! PROOFS. A candidate read ends: the candidate is placed, held or leaves its turn (R42 to R46). -/

namespace Sys2Proof.Machine
open Sys2Proof Sys2Proof.Machine Sys2Proof.Machine.Claims

section Candidate

variable {u : State} {x : Candidate} {f : FillBuf}

/-! ## What a candidate that is taken does to the commit side (R44) -/

/-- The commit side once the fetch is over. -/
def Commit.fetched (c : Commit) : Commit := { c with fetching := none }

theorem candidate_take (h : dwrrCheck u.com.sched x = .take) :
    u.candidate x = ({ u with com := Commit.arrive u.prof x u.com.fetched } : State).settle := by
  simp only [State.candidate, h]
  rfl

theorem arrive_fits (hf : u.com.filling = some f) (hx : placedWords f.recs + x.body.words.length ≤ 58) :
    Commit.arrive u.prof x u.com.fetched = Commit.place u.prof f x u.com.fetched := by
  simp [Commit.arrive, Commit.fetched, hf, fits, hx]

/-- A candidate that does not fit closes the buffer by FIT and is held. -/
theorem arrive_held (hf : u.com.filling = some f) (hx : 58 < placedWords f.recs + x.body.words.length) :
    Commit.arrive u.prof x u.com.fetched =
      { u.com.fetched with filling := none, closed := u.com.closed ++ [headerAt u.com f.recs .fit], held := some x } := by
  simp only [Commit.arrive, Commit.fetched, hf, fits, decide_eq_false (Nat.not_le.mpr hx)]
  rw [if_neg (by simp), Commit.close_filling rfl]
  rfl

/-- In RUN settling only turns the buffers over. -/
theorem settledCom_with_run (c : Commit) (h : u.pow.state = .run) : ({ u with com := c } : State).settledCom = c.turnOver u.prof :=
  settledCom_run (s := { u with com := c }) h

/-- A candidate placed in RUN that is not urgent: nothing but the journal-full flag follows. -/
theorem candidate_placed (h : dwrrCheck u.com.sched x = .take) (hf : u.com.filling = some f) (hh : u.com.held = none)
    (hx : placedWords f.recs + x.body.words.length ≤ 58) (hu : x.body.urgent = false) (hr : u.pow.state = .run) :
    (u.candidate x).com = { u.com.fetched.withPlaced u.prof f x with full := (u.candidate x).com.full } := by
  have hset : ({ u with com := u.com.fetched.withPlaced u.prof f x } : State).settledCom = u.com.fetched.withPlaced u.prof f x := by
    rw [settledCom_with_run _ hr]
    exact Commit.turnOver_filling _ hh rfl
  rw [candidate_take h, arrive_fits hf hx, Commit.place_eq, if_neg (by simp [hu]), settle_com]
  dsimp only
  rw [hset]

/-- An urgent candidate placed closes the buffer. -/
theorem candidate_urgent (h : dwrrCheck u.com.sched x = .take) (hf : u.com.filling = some f) (hh : u.com.held = none)
    (hx : placedWords f.recs + x.body.words.length ≤ 58) (hu : x.body.urgent = true) :
    (u.candidate x).com.queues = (u.com.fetched.withPlaced u.prof f x).queues ∧
    (u.candidate x).com.closed = u.com.closed ++ [headerAt (u.com.fetched.withPlaced u.prof f x) (f.recs ++ [x.body]) .urgent] := by
  have hset := settledCom_closed (u := u) (c := u.com.fetched.withPlaced u.prof f x) .urgent rfl hh
  rw [candidate_take h, arrive_fits hf hx, Commit.place_eq, if_pos hu, settle_com]
  dsimp only
  rw [hset, Commit.refill_eq, Commit.close_filling rfl]
  exact ⟨rfl, rfl⟩

/-- A candidate that does not fit, with no FREE buffer. -/
theorem candidate_held (h : dwrrCheck u.com.sched x = .take) (hf : u.com.filling = some f)
    (hx : 58 < placedWords f.recs + x.body.words.length) (hu : 2 ≤ u.com.buffersUsed) :
    (u.candidate x).com = { u.com.fetched with
      filling := none, closed := u.com.closed ++ [headerAt u.com f.recs .fit], held := some x, full := (u.candidate x).com.full } := by
  have hused : ({ u.com.fetched with filling := none, closed := u.com.closed ++ [headerAt u.com f.recs .fit], held := some x } : Commit).buffersUsed
      = u.com.buffersUsed := by
    simp [Commit.buffersUsed, Commit.fetched, hf]
  have ht := Commit.turnOver_used u.prof (c := { u.com.fetched with
    filling := none, closed := u.com.closed ++ [headerAt u.com f.recs .fit], held := some x }) rfl (by rw [hused]; exact hu)
  rw [candidate_take h, arrive_held hf hx, settle_com, settledCom_of_open, ht]
  rw [ht]
  exact drainClose_of_empty rfl

/-- A candidate that does not fit, with a FREE buffer to go into, in RUN. -/
theorem candidate_moved (h : dwrrCheck u.com.sched x = .take) (hf : u.com.filling = some f)
    (hx : 58 < placedWords f.recs + x.body.words.length) (hu : u.com.buffersUsed = 1) (hn : x.body.urgent = false)
    (hr : u.pow.state = .run) : (u.candidate x).com = { ({ u.com.fetched with
      filling := some ⟨[], 0⟩, closed := [headerAt u.com f.recs .fit], held := none } : Commit).withPlaced u.prof ⟨[], 0⟩ x with
      full := (u.candidate x).com.full } := by
  have hfree : u.com.closed = [] ∧ u.com.inflight = none := by
    cases hi : u.com.inflight <;> simp [Commit.buffersUsed, hf, hi] at hu ⊢
    exact hu
  have hturn := Commit.turnOver_held u.prof (c := { u.com.fetched with
    filling := none, closed := [headerAt u.com f.recs .fit], held := some x }) rfl rfl (by simp [Commit.buffersUsed, Commit.fetched, hfree.2])
  rw [Commit.place_eq, if_neg (by simp [hn]), Commit.refill_filling rfl] at hturn
  rw [candidate_take h, arrive_held hf hx, hfree.1, List.nil_append, settle_com, settledCom_with_run _ hr]
  dsimp only
  rw [hturn]

/-! ## Charges (R41, R42) -/

theorem withPlaced_credits (p : Profile) (f : FillBuf) (c : Commit) (ha : x.alg = .wrr) (ht : (c.queues.get x.body.cls).tail ≠ []) :
    (c.withPlaced p f x).sched.credits.get x.body.cls = c.sched.credits.get x.body.cls - 1 := by
  have hd : (c.queues.set x.body.cls (c.queues.get x.body.cls).tail).toList.all List.isEmpty = false :=
    Commit.drained_false (c := c.withPlaced p f x) (i := x.body.cls) (by simpa [Commit.withPlaced] using ht)
  simp [Commit.withPlaced, hd, chargeSched, ha]

theorem withPlaced_deficits (p : Profile) (f : FillBuf) (c : Commit) (ha : x.alg = .dwrr) :
    (c.withPlaced p f x).sched.deficits.get x.body.cls =
      if (c.queues.get x.body.cls).tail = [] then 0 else c.sched.deficits.get x.body.cls - x.body.size := by
  by_cases ht : (c.queues.get x.body.cls).tail = []
  · by_cases hd : (c.queues.set x.body.cls []).toList.all List.isEmpty = true
    · simp [Commit.withPlaced, ht, hd, startOfRound, Four.get_const]
    · have hm := (move_moved p .dwrr { c.sched with deficits := c.sched.deficits.set x.body.cls 0 }).2.1
      simp [Commit.withPlaced, ht, hd, chargeSched, ha, hm]
  · have hd : (c.queues.set x.body.cls (c.queues.get x.body.cls).tail).toList.all List.isEmpty = false :=
      Commit.drained_false (c := c.withPlaced p f x) (i := x.body.cls) (by simpa [Commit.withPlaced] using ht)
    simp [Commit.withPlaced, hd, chargeSched, ha, ht]

theorem dwrrCheck_other (d : Sched) (h : x.alg = .sp ∨ x.alg = .wrr) : dwrrCheck d x = .take := by
  rcases h with h | h <;> simp [dwrrCheck, h]

theorem dwrrCheck_take {d : Sched} (hb : d.begun = true) (hp : d.pos = x.body.cls) (hs : x.body.size ≤ d.deficits.get x.body.cls) :
    dwrrCheck d x = .take := by
  unfold dwrrCheck
  split
  · simp [hb, hp, Nat.not_lt.mpr hs]
  · rfl

theorem dwrrCheck_endTurn {d : Sched} (ha : x.alg = .dwrr) (hb : d.begun = true) (hp : d.pos = x.body.cls)
    (hs : d.deficits.get x.body.cls < x.body.size) : dwrrCheck d x = .endTurn := by
  simp [dwrrCheck, ha, hb, hp, hs]

theorem candidate_endTurn (h : dwrrCheck u.com.sched x = .endTurn) :
    u.candidate x = { u with com := { u.com.fetched with sched := u.com.sched.move u.prof .dwrr } } := by
  simp only [State.candidate, h]
  rfl

/-- Whatever becomes of a candidate, its fetch is over and the rings and the ring write queue are as before. -/
theorem candidate_rest (x : Candidate) (u : State) : (u.candidate x).com.fetching = none ∧ (u.candidate x).stg.rings = u.stg.rings ∧
    (u.candidate x).stg.queue = u.stg.queue := by
  cases h : dwrrCheck u.com.sched x with
  | take =>
    have hfetch : (Commit.arrive u.prof x u.com.fetched).fetching = none := by
      unfold Commit.arrive
      split
      · rfl
      · split
        · exact (Commit.place_sameHead u.prof _ x u.com.fetched).fetching
        · exact (Commit.close_sameHead .fit u.com.fetched).fetching
    rw [candidate_take h]
    simp [hfetch]
  | endTurn =>
    rw [candidate_endTurn h]
    exact ⟨rfl, rfl, rfl⟩
  | stale =>
    simp only [State.candidate, h, and_self]

end Candidate

theorem candidateReadComplete_eq {s : State} {fetch : Fetch} {off : Nat} (hf : s.com.fetching = some fetch)
    (hg : s.dram.grant = some (.source .commit (.read off 16))) (he : s.dram.entryReq = none) :
    exec .candidateReadComplete s = .next ((State.eccRead true (readDram s.dram.cells off 16)
      { s with dram := { s.dram with grant := none } }).candidate
        (s.candidateOf fetch (readDram s.dram.cells off 16) (codeData (readCell dramDefault s.dram.cells off)))) := by
  have hc := carried_eq (.read off 16) (.inl he)
  simp only [exec, execCandidateReadComplete, hg, hf, hc]
  rfl

/-- Settles O27. -/
theorem candidateReadPlacesOrHolds : Obligations.CandidateReadPlacesOrHolds := by
  unfold Obligations.CandidateReadPlacesOrHolds
  intro s fetch f off hfetch hf hh hg he rs raw x
  have hstep := candidateReadComplete_eq hfetch hg he
  have hbody : (s.candidateOf fetch rs raw).body = x := rfl
  have hcls : x.cls = fetch.cls := by
    simp only [x]
    split <;> rfl
  have hseq : x.seq = fetch.seq := by
    simp only [x]
    split <;> rfl
  generalize hy : s.candidateOf fetch rs raw = y at hstep hbody
  have halg : y.alg = fetch.alg := by rw [← hy]; rfl
  generalize hu : State.eccRead true rs { s with dram := { s.dram with grant := none } } = u at hstep
  have hcom : u.com = s.com := by simp [← hu]
  have hprof : u.prof = s.prof := by simp [← hu]
  have hpow : u.pow = s.pow := by simp [← hu]
  have hstg : u.stg = s.stg := by simp [← hu]
  have hgrant : u.dram.grant = none := by rw [← hu, (eccRead_any true rs _).1]
  have hcells : u.dram.cells = s.dram.cells := by simp [← hu]
  have hfu : u.com.filling = some f := by rw [hcom]; exact hf
  have hhu : u.com.held = none := by rw [hcom]; exact hh
  obtain ⟨hrest, hrings, hqueue⟩ := candidate_rest y u
  clear_value x
  subst hbody
  rw [← hcls] at *
  refine ⟨_, hstep, hrest, by simp [hgrant], by simp [hcells], by simp [← hu], hrings.trans (by rw [hstg]), hqueue.trans (by rw [hstg]), by simp [← hu],
    by simp [← hu], by simp [← hu], by simp [← hu], fun ha hx hn hr => ?_, fun ha hx hn => ?_, fun ha hx hused => ?_,
    fun ha hx hused hn hr hl => ?_, fun ha hb hp hs hx hn hr => ?_, fun ha hb hp hs => ?_⟩
  · have ht := dwrrCheck_other (x := y) u.com.sched (by rw [halg]; exact ha)
    rw [candidate_placed ht hfu hhu hx hn (by rw [hpow]; exact hr), hcom]
    refine ⟨rfl, by rw [← hseq]; rfl, rfl, ⟨_, rfl, fun he => by simp [he]⟩, hh, rfl, fun hw htl => ?_⟩
    exact withPlaced_credits u.prof f s.com.fetched (halg.trans hw) htl
  · have ht := dwrrCheck_other (x := y) u.com.sched (by rw [halg]; exact ha)
    obtain ⟨h1, h2⟩ := candidate_urgent ht hfu hhu hx hn
    rw [hcom] at h1 h2
    exact ⟨h1, s.com.fetched.withPlaced u.prof f y, by rw [← hseq]; rfl, rfl, h2⟩
  · have ht := dwrrCheck_other (x := y) u.com.sched (by rw [halg]; exact ha)
    rw [candidate_held ht hfu hx (by rw [hcom]; exact hused), hcom]
    exact ⟨rfl, by rw [← halg], rfl, rfl⟩
  · have ht := dwrrCheck_other (x := y) u.com.sched (by rw [halg]; exact ha)
    rw [candidate_moved ht hfu hx (by rw [hcom]; exact hused) hn (by rw [hpow]; exact hr), hcom]
    exact ⟨rfl, rfl, rfl, rfl⟩
  · have ht := dwrrCheck_take (x := y) (d := u.com.sched) (by rw [hcom]; exact hb) (by rw [hcom]; exact hp) (by rw [hcom]; exact hs)
    rw [candidate_placed ht hfu hhu hx hn (by rw [hpow]; exact hr), hcom]
    exact ⟨⟨_, rfl⟩, rfl, withPlaced_deficits u.prof f s.com.fetched (halg.trans ha)⟩
  · have ht := dwrrCheck_endTurn (x := y) (d := u.com.sched) (halg.trans ha) (by rw [hcom]; exact hb) (by rw [hcom]; exact hp)
      (by rw [hcom]; exact hs)
    have hm := move_moved u.prof .dwrr s.com.sched
    rw [candidate_endTurn ht, hcom]
    exact ⟨rfl, rfl, hh, rfl, hm.2.1, hm.1⟩

end Sys2Proof.Machine

/-! PROOFS. Flash reads, erase suspensions and the start of a job (R63 to R73, R76). -/

namespace Sys2Proof.Machine
open Sys2Proof Sys2Proof.Machine Sys2Proof.Machine.Claims

section FlashJobs

variable {s : State} {p : Port} {r : Request} {rest : List Request}

/-! ## A port's flash read joins its list (R71, R72) -/

theorem askSuspend_asked {f : Flash} {x : Running} (h : f.current = some x) (he : x.job.isErase = true) (hn : x.suspensions < 16)
    (ha : x.abortReq = false) (hr : f.portReads ≠ []) : f.askSuspend = { f with current := some { x with suspendReq := true } } := by
  simp [Flash.askSuspend, h, he, hn, ha, hr]

theorem askSuspend_kept {f : Flash} (h : ∀ x, f.current = some x → x.job.isErase = false ∨ 16 ≤ x.suspensions ∨ x.abortReq = true ∨ f.portReads = []) :
    f.askSuspend = f := by
  unfold Flash.askSuspend
  split
  · next x hx =>
    refine if_neg ?_
    rcases h x hx with he | hn | ha | hr
    · simp [he]
    · simp [Nat.not_lt.mpr hn]
    · simp [ha]
    · simp [hr]
  · rfl

/-- The port read list with one more read of a port. -/
def Flash.readOffered (f : Flash) (p : Port) (word len : Nat) : Flash := { f with portReads := f.portReads ++ [.portRead p word len] }

theorem flashRead_offers (h : Current s p r rest) (hg : s.gate p = .serve) {word : Nat} (hl : lookup s.prof.windows r = .flashRead word) :
    exec (.flashRead p) s = .next { s with
      ports := s.ports.set p { s.ports.get p with carry := .flash }
      pow := { s.pow with relapse := relapseAfter s p }
      flash := (s.flash.readOffered p word r.len).askSuspend } := by
  have ht : s.taking p = .flashRead word := (taking_lookup h hg).trans hl
  simp only [exec, execFlashRead, ht, front_current h, State.take_eq]
  rfl

/-- Settles O34. -/
theorem flashReadQueuesAndMaySuspend : Obligations.FlashReadQueuesAndMaySuspend := by
  unfold Obligations.FlashReadQueuesAndMaySuspend
  intro s p r rest word h hg hl next
  refine ⟨fun x hx he hn ha => ?_, fun hx => ?_⟩
  · rw [flashRead_offers h hg hl, askSuspend_asked (f := s.flash.readOffered p word r.len) hx he hn ha (by simp [Flash.readOffered])]
    rfl
  · rw [flashRead_offers h hg hl, askSuspend_kept (f := s.flash.readOffered p word r.len) (fun x hc => (hx x hc).imp_right (·.imp_right .inl))]
    rfl

/-! ## Contents part-way through an operation (R73, R74, R76) -/

theorem inBlock_iff (b a : Nat) : inBlock b a = true ↔ b * 1024 ≤ a ∧ a < b * 1024 + 1024 := by
  simp only [inBlock, Bool.and_eq_true, decide_eq_true_eq]
  omega

/-- A block part-way through an erase is part erased, whatever else has changed. -/
theorem partErased_of_cells {t : State} {b n : Nat} (h : t.flash.cells = partEraseBlock n s.flash.cells b) : PartErased s t b := by
  refine ⟨fun a ha => ?_, fun a _ _ => ?_⟩
  · have hin : inBlock b a = false := by
      rw [← Bool.not_eq_true, inBlock_iff]
      omega
    rw [h, partEraseBlock_read, hin]
    rfl
  · rw [h, partEraseBlock_read]
    split
    · exact .inr rfl
    · exact .inl rfl

/-! ## Suspension and resumption of an erase (R72) -/

theorem Job.erased_iff {j : Job} {b : Nat} : j.erased = some b ↔ j = .upErase b ∨ j = .burnErase b := by
  cases j <;> simp [Job.erased]

theorem Job.limit_of_erased {j : Job} {b : Nat} (h : j.erased = some b) : j.limit = some 50 := by
  rcases Job.erased_iff.mp h with rfl | rfl <;> rfl

theorem Running.expired_of_erased {x : Running} {b : Nat} (h : x.job.erased = some b) : x.expired = decide (50 ≤ x.time) := by
  simp [Running.expired, Job.limit_of_erased h]

theorem eraseSuspension_suspends {x : Running} {j : Job} {more : List Job} {b : Nat} (hc : s.flash.current = some x) (hb : x.job.erased = some b)
    (hr : x.suspendReq = true) (hp : s.flash.portReads = j :: more) (ht : x.time < 50) :
    exec .eraseSuspension s = .next { s.leaveErase b with
      flash.suspended := some { x with suspendReq := false, suspensions := x.suspensions + 1 }
      flash.current := some (Running.start j)
      flash.portReads := more } := by
  simp [exec, execEraseSuspension, hc, hp, hb, hr, Running.expired_of_erased hb, ht]

theorem eraseSuspension_late {x : Running} {j : Job} {more : List Job} {b : Nat} (hc : s.flash.current = some x) (hb : x.job.erased = some b)
    (hp : s.flash.portReads = j :: more) (ht : 50 ≤ x.time) : exec .eraseSuspension s = .next s := by
  simp [exec, execEraseSuspension, hc, hp, hb, Running.expired_of_erased hb, ht]

/-- A port's flash READ ends: the port is answered and the device finishes. -/
theorem readJobEnd_port {word len : Nat} (h : Carried s p .flash r rest) (hj : s.flash.currentJob = some (.portRead p word len)) :
    exec .readJobEnd s = .next { s with
      ports := answered s p rest (.done (flashWords s.flash.cells word len))
      flash := s.flash.finish } := by
  obtain ⟨hs, -, hq, hl⟩ := h
  simp only [exec, execReadJobEnd, hj, State.portReadEnd, State.finishJob, State.answer_served p _ s r rest hs hq hl]
  rfl

theorem readCells_eq {w : Nat} (d : BitVec w) (cells : List (Nat × BitVec w)) (a n : Nat) :
    readCells d cells a n = (List.range n).map (fun i => readCell d cells (a + i)) := by
  induction n generalizing a with
  | zero => rfl
  | succ n ih =>
    rw [readCells, ih, List.range_succ_eq_map]
    simp [Nat.add_assoc, Nat.add_comm 1]

theorem flashWords_eq (cells : List (Nat × Word)) (a n : Nat) :
    flashWords cells a n = (List.range n).map (fun i => readCell erasedWord cells (a + i)) := readCells_eq _ _ _ _

/-- Settles O35. -/
theorem suspendedEraseWaitsForOneRead : Obligations.SuspendedEraseWaitsForOneRead := by
  unfold Obligations.SuspendedEraseWaitsForOneRead
  refine ⟨fun s x j more b hc hj hr hp => ?_, ?_⟩
  · have hb := Job.erased_iff.mpr hj
    exact ⟨eraseSuspension_late hc hb hp, fun ht => ⟨_, eraseSuspension_suspends hc hb hr hp ht, partErased_of_cells rfl, rfl⟩⟩
  · intro s p r rest word len h hj next
    have hend := readJobEnd_port h hj
    rw [flashWords_eq] at hend
    refine ⟨fun hn => ?_, fun x hx => ⟨fun ha => ?_, fun ha hk => ?_, fun ha hq hn he => ?_⟩⟩
    · rw [hend]
      simp [Flash.finish, hn, next]
    · rw [hend]
      simp [Flash.finish, hx, ha, next]
    · have hask : ({ s.flash with current := some x, suspended := none } : Flash).askSuspend = { s.flash with current := some x, suspended := none } :=
        askSuspend_kept (fun y hy => by
          cases hy
          rcases hk with hk | hk | hk
          · exact .inr (.inr (.inr hk))
          · exact .inr (.inl hk)
          · exact .inl hk)
      rw [hend]
      simp [Flash.finish, hx, ha, hask, next]
    · have hask := askSuspend_asked (f := { s.flash with current := some x, suspended := none }) rfl he hn ha hq
      rw [hend]
      simp [Flash.finish, hx, ha, hask, next]

/-! ## The next job (R70, R58, R76) -/

theorem jobStart_eq (hs : s.su.supply = .running) (he : s.dram.entryReq = none) (hd : s.pow.state ≠ .doze) (hh : s.pow.state ≠ .pfHalt)
    (hc : s.flash.current = none) (hp : s.flash.suspended = none) : exec .jobStart s = .next (match s.flash.takeNext s.noJournalErase with
      | some (j, f) => { s with flash := { f with current := some (Running.start j) } }
      | none => s) := by
  have hw : (s.working && s.flash.free) = true := by
    simp [State.working, (State.clockRuns_iff s).mpr ⟨hs, hd, hh⟩, he, Flash.free, hc, hp]
  exact congrArg Host.Outcome.next (if_pos hw)

theorem noJournalErase_iff : s.noJournalErase = true ↔ s.pow.state = .pfDrain ∨ s.lock.journalRetain = true := by
  simp [State.noJournalErase]

theorem takeNext_port {f : Flash} {j : Job} {more : List Job} (hp : f.portReads = j :: more) (n : Bool) :
    f.takeNext n = some (j, { f with portReads := more }) := by
  simp [Flash.takeNext, hp]

theorem takeNext_journal {f : Flash} {j : Job} {more : List Job} (hp : f.portReads = []) (hj : f.journal = j :: more) (n : Bool) :
    f.takeNext n = some (j, { f with journal := more }) := by
  simp [Flash.takeNext, hp, hj]

theorem takeNext_upkeep {f : Flash} {j : Job} {more : List Job} (hp : f.portReads = []) (hj : f.journal = []) (hu : f.upkeep = j :: more) {n : Bool}
    (h : (n && j.isErase) = false) : f.takeNext n = some (j, { f with upkeep := more }) := by
  simp [Flash.takeNext, hp, hj, Flash.takeUpkeep, hu, h]

theorem takeNext_later {f : Flash} (hp : f.portReads = []) (hj : f.journal = []) {n : Bool}
    (h : f.upkeep = [] ∨ n = true ∧ ∃ b more, f.upkeep = .upErase b :: more) : f.takeNext n = f.takeLater := by
  rcases h with hu | ⟨rfl, b, more, hu⟩
  · simp [Flash.takeNext, hp, hj, Flash.takeUpkeep, hu]
  · simp [Flash.takeNext, hp, hj, Flash.takeUpkeep, hu, Job.isErase]

/-- Settles O36. -/
theorem jobStartTakesFirstInListOrder : Obligations.JobStartTakesFirstInListOrder := by
  unfold Obligations.JobStartTakesFirstInListOrder
  intro s hs he hd hh hc hp start skipped
  rw [jobStart_eq hs he hd hh hc hp]
  refine ⟨fun j more h => ?_, fun j more h1 h2 => ?_, fun j more h1 h2 h3 h4 => ?_, fun j more h1 h2 h3 h4 => ?_,
    fun j more h1 h2 h3 h4 h5 => ?_, fun h1 h2 h3 h4 h5 => ?_⟩
  · rw [takeNext_port h]
    rfl
  · rw [takeNext_journal h1 h2]
    rfl
  · have hn : (s.noJournalErase && j.isErase) = false := by
      rw [Bool.and_eq_false_iff, ← Bool.not_eq_true, noJournalErase_iff]
      rcases h4 with h4 | ⟨h4, h5⟩
      · exact .inr h4
      · exact .inl (by simp [h4, h5])
    rw [takeNext_upkeep h1 h2 h3 hn]
    rfl
  all_goals rw [takeNext_later h1 h2 (h3.imp_right (fun h => ⟨noJournalErase_iff.mpr h.1, h.2⟩))]
  · simp [Flash.takeLater, h4, start, Running.start]
  · simp [Flash.takeLater, h4, h5, start, Running.start]
  · simp [Flash.takeLater, h4, h5]

end FlashJobs
end Sys2Proof.Machine

/-! PROOFS. How flash operations end: programs, erases, checks, header reads and operations cut off (R56, R57, R62 to R78). -/

namespace Sys2Proof.Machine
open Sys2Proof Sys2Proof.Machine Sys2Proof.Machine.Claims

section FlashEnds

variable {s t : State} {b page : Nat} {ws : List Word} {ds : List Defect} {r : Running}

/-! ## What an operation leaves in the flash (R62, R74, log 10) -/

theorem flashAddr_add (b page i : Nat) : flashAddr b page i = flashAddr b page 0 + i := by
  simp only [flashAddr]
  omega

theorem defect_word_lt {n : Nat} (h : ds.all (Defect.wf n) = true) {d : Defect} (hd : d ∈ ds) : d.word < n := by
  simpa [Defect.wf] using List.all_eq_true.mp h d hd

theorem programmed_of_cells (hm : cellsWf erasedWord s.flash.cells = true) (hl : ws.length = 64) (hd : ds.all (Defect.wf 64) = true)
    (h : t.flash.cells = applyDefects (programWords s.flash.cells (flashAddr b page 0) ws) (flashAddr b page 0) ds) :
    Programmed s t b page ws ds := by
  refine ⟨fun a ha => ?_, fun i hi hn => ?_⟩
  · have hout : ∀ d ∈ ds, flashAddr b page 0 + d.word ≠ a := fun d hm => by
      have := defect_word_lt hd hm
      omega
    rw [h, readCell_applyDefects_other _ _ _ _ hout, readCell_programWords_outside _ _ _ _ (by omega)]
  · have hout : ∀ d ∈ ds, flashAddr b page 0 + d.word ≠ flashAddr b page 0 + i := fun d hm => by
      have := hn d hm
      omega
    rw [flashAddr_add, h, readCell_applyDefects_other _ _ _ _ hout,
      readCell_programWords_inside _ _ _ _ hm (by omega) (by omega)]
    simp [wordAt, hi]

theorem erasedBlock_of_cells (hd : ds.all (Defect.wf 1024) = true)
    (h : t.flash.cells = applyDefects (eraseBlock s.flash.cells b) (b * 1024) ds) : ErasedBlock s t b ds := by
  refine ⟨fun a ha => ?_, fun i hi hn => ?_⟩
  · have hout : ∀ d ∈ ds, b * 1024 + d.word ≠ a := fun d hm => by
      have := defect_word_lt hd hm
      omega
    have hin : inBlock b a = false := by
      rw [← Bool.not_eq_true, inBlock_iff]
      omega
    rw [h, readCell_applyDefects_other _ _ _ _ hout, eraseBlock_outside _ _ _ hin]
  · have hout : ∀ d ∈ ds, b * 1024 + d.word ≠ b * 1024 + i := fun d hm => by
      have := hn d hm
      omega
    rw [h, readCell_applyDefects_other _ _ _ _ hout, eraseBlock_inside _ _ _ ((inBlock_iff _ _).mpr (by omega))]

theorem torn_of_cells {n : Nat} (hm : cellsWf erasedWord s.flash.cells = true)
    (h : t.flash.cells = tearWords n s.flash.cells (flashAddr b page 0) ws) : Torn s t b page ws := by
  refine ⟨fun a ha => ?_, fun i hi => ?_⟩
  · rw [h, readCell_tearWords_outside _ _ _ _ _ ha]
  · rw [flashAddr_add, h, readCell_tearWords_inside _ _ _ _ _ hm (by omega) (by omega)]
    split
    · exact .inl rfl
    · exact .inr (by simp [wordAt, hi])

theorem flashWf_of_memoryWf (h : s.memoryWf = true) : cellsWf erasedWord s.flash.cells = true := ((State.memoryWf_iff s).mp h).2

/-! ## Blank blocks (R62, R68) -/

theorem readCell_ne_of_mem {w : Nat} {d : BitVec w} {cells : List (Nat × BitVec w)} {lo : Nat} (h : cellsFrom d lo cells = true)
    {c : Nat × BitVec w} (hc : c ∈ cells) : readCell d cells c.1 ≠ d := by
  have hge : ∀ (cs : List (Nat × BitVec w)) (lo : Nat), cellsFrom d lo cs = true → ∀ x ∈ cs, lo ≤ x.1 := by
    intro cs
    induction cs with
    | nil => simp
    | cons y ys ih =>
      intro lo h x hx
      simp only [cellsFrom, Bool.and_eq_true, decide_eq_true_eq] at h
      rcases List.mem_cons.mp hx with rfl | hx
      · exact h.1.1
      · have := ih _ h.2 x hx
        omega
  induction cells generalizing lo with
  | nil => simp at hc
  | cons x rest ih =>
    obtain ⟨k, v⟩ := x
    simp only [cellsFrom, Bool.and_eq_true, decide_eq_true_eq] at h
    obtain ⟨⟨-, hv⟩, hr⟩ := h
    rcases List.mem_cons.mp hc with rfl | hc
    · simpa [readCell] using hv
    · have := hge rest (k + 1) hr c hc
      rw [readCell, if_neg (by omega)]
      exact ih hr hc

theorem blockBlank_reads {cells : List (Nat × Word)} (h : cellsWf erasedWord cells = true) :
    blockBlank cells b = true ↔ ∀ i, i < 1024 → readCell erasedWord cells (b * 1024 + i) = erasedWord := by
  rw [blockBlank_iff cells b h]
  refine ⟨fun hb i hi => ?_, fun hb c hc => ?_⟩
  · have hsame : eraseBlock cells b = cells := List.filter_eq_self.mpr (fun c hc => by simp [hb c hc])
    rw [← hsame]
    exact eraseBlock_inside _ _ _ ((inBlock_iff _ _).mpr (by omega))
  · rw [← Bool.not_eq_true, inBlock_iff]
    rintro ⟨h1, h2⟩
    have hr := hb (c.1 - b * 1024) (by omega)
    rw [Nat.add_sub_cancel' h1] at hr
    exact readCell_ne_of_mem h hc hr

theorem blockBlank_false {cells : List (Nat × Word)} (h : cellsWf erasedWord cells = true) :
    blockBlank cells b = false ↔ ∃ i, i < 1024 ∧ readCell erasedWord cells (b * 1024 + i) ≠ erasedWord := by
  rw [← Bool.not_eq_true, blockBlank_reads h]
  simp

theorem allErased_iff (ws : List Word) : allErased ws = true ↔ ∀ w ∈ ws, w = erasedWord := by
  simp [allErased]

/-! ## Ends of journal programs and upkeep erases (R66, R69) -/

theorem runningJob_of {j : Job} (h : JobAtDevice s j) (hr : s.flash.current = some r) (ha : r.abortReq = false) : s.flash.runningJob = some j := by
  have hj := h.1
  simp only [Flash.currentJob, hr] at hj
  simpa [Flash.runningJob, Flash.running, hr, ha] using hj

theorem JobAtDevice.job {j : Job} (h : JobAtDevice s j) (hr : s.flash.current = some r) : r.job = j := by
  simpa [Flash.currentJob, hr] using h.1

theorem programEnd_eq (hd : ds.all (Defect.wf 64) = true) {j : Job} (hj : s.flash.currentJob = some j) :
    exec (.programEnd ds) s = .next (match j with
      | .pageProgram b p => (s.programPage b p s.pageSource ds).finishJob
      | .burnProgram b p ws => (s.programPage b p ws ds).finishJob.burnTakes State.burnProgrammed
      | _ => s) := by
  simp only [exec, execProgramEnd, if_pos hd, hj]
  cases j <;> rfl

theorem eraseEnd_eq (hd : ds.all (Defect.wf 1024) = true) {j : Job} (hj : s.flash.runningJob = some j) :
    exec (.eraseEnd ds) s = .next (match j with
      | .upErase b => { (s.erasedBlock b ds).finishJob with flash.upkeep := [.upBlank b] }
      | .burnErase b => (s.erasedBlock b ds).finishJob.burnTakes (fun x s => s.burnNext { x with held := .s4Blank })
      | _ => s) := by
  simp only [exec, execEraseEnd, if_pos hd, hj]
  cases j <;> rfl

/-- Settles O37. -/
theorem programAndEraseEndWriteTheFlash : Obligations.ProgramAndEraseEndWriteTheFlash := by
  unfold Obligations.ProgramAndEraseEndWriteTheFlash
  intro s ds hm
  refine ⟨fun hd => by simp [exec, execProgramEnd, hd], fun hd => by simp [exec, execEraseEnd, hd], fun f hi hj hl hd => ?_,
    fun b r hj hr ha hd => ?_⟩
  · have hsource : s.pageSource = pageWords f := by simp [State.pageSource, hi]
    refine ⟨{ s with flash := { s.flash with
      cells := applyDefects (programWords s.flash.cells (flashAddr f.block f.page 0) (pageWords f)) (flashAddr f.block f.page 0) ds, current := none } },
      ?_, programmed_of_cells (flashWf_of_memoryWf hm) hl hd rfl, rfl⟩
    rw [programEnd_eq hd hj.1]
    dsimp only
    rw [finishJob_alone (s := s.programPage f.block f.page s.pageSource ds) hj.2, hsource]
    rfl
  · refine ⟨{ s with flash := { s.flash with
      cells := applyDefects (eraseBlock s.flash.cells b) (b * 1024) ds, current := none, upkeep := [.upBlank b] } },
      ?_, erasedBlock_of_cells hd rfl, rfl⟩
    rw [eraseEnd_eq hd (runningJob_of hj hr ha)]
    dsimp only
    rw [finishJob_alone (s := s.erasedBlock b ds) hj.2]
    rfl

/-! ## Ends of the upkeep jobs (R56, R57, R68, R74) -/

theorem blankCheckEnd_eq {j : Job} (hj : s.flash.currentJob = some j) :
    exec .blankCheckEnd s = .next (match j with
      | .upBlank b => if blockBlank s.flash.cells b then s.finishJob.upkeepJoined else s.finishJob.upkeepFailed b
      | .burnBlank b => s.finishJob.burnTakes (fun x s => s.burnBlanked x (blockBlank s.flash.cells b))
      | .suBlank b => s.finishJob.startChecked b (blockBlank s.flash.cells b)
      | _ => s) := by
  simp only [exec, execBlankCheckEnd, hj]
  cases j <;> rfl

/-- The device with no job. -/
def State.deviceFreed (s : State) : State := { s with flash := { s.flash with current := none } }

theorem finishJob_freed {s : State} (h : s.flash.suspended = none) : s.finishJob = s.deviceFreed := finishJob_alone h

/-- A job with no erase suspended behind it reaches its limit: its contents are cut off, the device is free and its requester is told. -/
theorem flashTimeout_alone (hr : s.flash.current = some r) (ha : r.abortReq = false) (hs : s.flash.suspended = none) {lim : Nat}
    (hl : r.job.limit = some lim) : exec .flashTimeout s = .next (match r.job with
      | .pageProgram _ _ => ((s.pass (lim - r.time)).cutOff r.job).deviceFreed.pageTimedOut
      | .upErase b => ((s.pass (lim - r.time)).cutOff r.job).deviceFreed.upkeepFailed b
      | _ => ((s.pass (lim - r.time)).cutOff r.job).deviceFreed.burnTakes (fun x s => s.burnEnd x 6 0#16)) := by
  have hsu : ((s.pass (lim - r.time)).cutOff r.job).flash.suspended = none := by
    rw [cutOff_eq]
    simpa using hs
  have hrun : s.flash.running = some r := by simp [Flash.running, hr, ha]
  simp only [exec, execFlashTimeout, hrun, hl, State.timedOut]
  rw [finishJob_freed hsu] <;> rfl

theorem flashTimeout_burn (hr : s.flash.current = some r) (ha : r.abortReq = false) (hs : s.flash.suspended = none) {lim : Nat}
    (hl : r.job.limit = some lim) (hj : r.job.isBurn = true) : exec .flashTimeout s =
      .next (((s.pass (lim - r.time)).cutOff r.job).deviceFreed.burnTakes (fun x s => s.burnEnd x 6 0#16)) := by
  rw [flashTimeout_alone hr ha hs hl]
  cases h : r.job with
  | portRead | pageProgram | pageVerify | upErase | upBlank | upHeader | suProfile | suPage | suBlank => simp [h, Job.isBurn] at hj
  | burnBlank | burnErase | burnProgram | burnVerify => rfl

theorem upkeepFailed_offered (b : Nat) (s : State) : Offered s (s.upkeepFailed b) (journalEvent s 3 b 0) := by
  unfold State.upkeepFailed
  dsimp only
  split
  all_goals exact (offerNow_offered _ _ _ s).after (bs := []) rfl rfl (causesKept_of_eq rfl) (by simp) (by simp)

theorem upkeepFailed_lists {s : State} (hl : s.com.skip.length < 16) (hn : b ∉ s.com.skip) :
    (s.upkeepFailed b).com = { s.com with skip := s.com.skip ++ [b] } ∧ (s.upkeepFailed b).mir.dirty = true := by
  simp [State.upkeepFailed, State.offerJournalEvent, hl, joinSkip, hn]

theorem upkeepFailed_holds {s : State} (hl : 16 ≤ s.com.skip.length) : (s.upkeepFailed b).com = { s.com with upkeepHeld := true } := by
  simp [State.upkeepFailed, State.offerJournalEvent, Nat.not_lt.mpr hl]

/-- An upkeep failure touches the commit side, the outbox and the mirror's flags. -/
theorem upkeepFailed_frame_eq (b : Nat) (s : State) : s.upkeepFailed b = { s with
    stg := { s.stg with outbox := (s.upkeepFailed b).stg.outbox, lost := (s.upkeepFailed b).stg.lost }
    com := (s.upkeepFailed b).com
    mir := { s.mir with dirty := (s.upkeepFailed b).mir.dirty, attention := (s.upkeepFailed b).mir.attention } } := by
  unfold State.upkeepFailed State.offerJournalEvent
  rw [offerNow_eq]
  dsimp only
  split <;> rfl

theorem upkeepFailed_ahead (b : Nat) (s : State) : (s.upkeepFailed b).com.ahead = s.com.ahead := by
  unfold State.upkeepFailed State.offerJournalEvent
  dsimp only
  split <;> simp

/-- What an offer of a JOURNAL-EVENT leaves of the causes. -/
theorem Claims.Offered.causesKept_lost {s t : State} {x : Record} (h : Offered s t x) : CausesKept s t [.full, .lost] :=
  h.causesKept.mono (by simp)

theorem oldestAfter_eq (c : Commit) (ws : List Word) : c.oldestAfter ws =
    if pageValid ws = true then some (wordAt ws 0) else if (∀ w ∈ ws, w = erasedWord) ∧ c.begun = true then c.oldest else none := by
  simp only [Commit.oldestAfter, Bool.and_eq_true, allErased_iff]

/-- Settles O38. -/
theorem upkeepJobsEnd : Obligations.UpkeepJobsEnd := by
  unfold Obligations.UpkeepJobsEnd
  refine ⟨fun s b hm hj => ⟨fun hb => ?_, fun hb => ?_⟩, fun s b r hj hr ha => ?_, ?_⟩
  · rw [blankCheckEnd_eq hj.1]
    dsimp only
    rw [if_pos ((blockBlank_reads (flashWf_of_memoryWf hm)).mpr hb), finishJob_alone hj.2]
    rfl
  · refine ⟨({ s with flash := { s.flash with current := none } } : State).upkeepFailed b, ?_, ?_, by simp, ?_, ?_, fun hl hn => ?_, fun hl => ?_⟩
    · rw [blankCheckEnd_eq hj.1]
      dsimp only
      rw [if_neg (by simpa using (blockBlank_false (flashWf_of_memoryWf hm)).mpr hb), finishJob_alone hj.2]
    · refine ⟨?_, (upkeepFailed_offered b _).causesKept_lost⟩
      rw [upkeepFailed_frame_eq]
    · exact (upkeepFailed_offered b _).before (bs := []) rfl rfl (causesKept_of_eq rfl) (by simp)
    · exact upkeepFailed_ahead b _
    · exact upkeepFailed_lists hl hn
    · exact upkeepFailed_holds hl
  · have hjob := JobAtDevice.job hj hr
    have hend := flashTimeout_alone hr ha hj.2 (lim := 50) (by rw [hjob]; rfl)
    rw [hjob] at hend
    have hskip : ((s.pass (50 - r.time)).cutOff (.upErase b)).deviceFreed.com.skip = s.com.skip := by
      change (s.pass (50 - r.time)).com.skip = s.com.skip
      rw [pass_com]
    refine ⟨_, _, rfl, hend, ?_, ?_, ?_, fun hl hn => ?_, fun hl => ?_⟩
    · exact partErased_of_cells (n := (s.pass (50 - r.time)).free) (by simp [State.cutOff, State.leaveErase, State.deviceFreed])
    · simp [State.deviceFreed]
    · exact (upkeepFailed_offered b _).before (bs := []) rfl rfl (causesKept_of_eq rfl) (by simp)
    · rw [← hskip] at hl hn ⊢
      exact congrArg Commit.skip (upkeepFailed_lists hl hn).1
    · rw [← hskip] at hl
      exact congrArg Commit.upkeepHeld (upkeepFailed_holds hl)
  · intro s b hj page oldest
    have hold : s.com.oldestAfter page = oldest := oldestAfter_eq _ _
    simp only [exec, execReadJobEnd, hj.1]
    rw [finishJob_alone hj.2, State.upkeepHeader, ← hold]

/-! ## Operations cut off (R74, R76, R97) -/

theorem burnTakes_none {f : Burn → State → State} (h : s.img.burn = none) : s.burnTakes f = s := by simp [State.burnTakes, h]

theorem burnTakes_stopped {f : Burn → State → State} {x : Burn} (h : s.img.burn = some x) (ha : x.aborting = true) :
    s.burnTakes f = s.burnRequeue x := by simp [State.burnTakes, h, ha]

theorem burnTakes_step {f : Burn → State → State} {x : Burn} (h : s.img.burn = some x) (ha : x.aborting = false) :
    s.burnTakes f = f x s := by simp [State.burnTakes, h, ha]

theorem burnRequeue_requeued {u : State} (x : Burn) (hi : s.img = u.img) : Requeued u (s.burnRequeue x) x := by
  refine ⟨?_, rfl, by simp [State.burnRequeue]⟩
  rw [← hi]
  rfl

theorem pass_burn (n : Nat) (s : State) : (s.pass n).img.burn = s.img.burn := by
  unfold State.pass
  split <;> rfl

theorem timedOutBurn_cells (x : State) : (x.burnTakes (fun b s => s.burnEnd b 6 0#16)).flash.cells = x.flash.cells :=
  State.burnTakes_ind (P := fun t => t.flash.cells = x.flash.cells) rfl (fun _ => rfl) (fun b _ => by simp)

theorem timedOutBurn_current (x : State) (h : x.flash.current = none) :
    (x.burnTakes (fun b s => s.burnEnd b 6 0#16)).flash.current = none :=
  State.burnTakes_ind (P := fun t => t.flash.current = none) h (fun _ => h) (fun b _ => by simp [h])

theorem aborting_of (hr : s.flash.current = some r ∨ s.flash.current = none ∧ s.flash.suspended = some r) (ha : r.abortReq = true) :
    s.flash.aborting = some r := by
  rcases hr with hr | ⟨hc, hr⟩
  · simp [Flash.aborting, hr, ha]
  · simp [Flash.aborting, hc, hr, ha]

/-- Settles O39. -/
theorem interruptedOperationsLeaveTheirContents : Obligations.InterruptedOperationsLeaveTheirContents := by
  unfold Obligations.InterruptedOperationsLeaveTheirContents
  refine ⟨fun s f r hm hi hj hr ha => ?_, fun s block page ws r hm hj hr ha => ?_, fun s r b hr ha => ⟨fun hj => ?_, fun x hj hx hb => ?_⟩⟩
  · have hjob := JobAtDevice.job hj hr
    have hin : (s.pass (2 - r.time)).com.inflight = some f := by rw [pass_com]; exact hi
    refine ⟨_, flashTimeout_page hr hjob hj.2 hi ha, torn_of_cells (n := (s.pass (2 - r.time)).free) (flashWf_of_memoryWf hm) ?_, by simp⟩
    rw [hjob]
    simp [State.cutOff, State.leaveTorn, State.pageSource, hin]
  · have hjob := JobAtDevice.job hj hr
    have hend := flashTimeout_burn hr ha hj.2 (lim := 2) (by rw [hjob]; rfl) (by rw [hjob]; rfl)
    rw [hjob] at hend
    refine ⟨_, _, rfl, hend, torn_of_cells (n := (s.pass (2 - r.time)).free) (flashWf_of_memoryWf hm) ?_, timedOutBurn_current _ rfl,
      fun x hx hb => ?_⟩
    · rw [timedOutBurn_cells]
      simp [State.deviceFreed, State.cutOff, State.leaveTorn]
    · have hx' : ((s.pass (2 - r.time)).cutOff (.burnProgram block page ws)).deviceFreed.img.burn = some x := (pass_burn _ s).trans hx
      rw [burnTakes_stopped hx' hb]
      exact ⟨burnRequeue_requeued x rfl, rfl, rfl⟩
  · refine ⟨{ s.leaveErase b with flash := { (s.leaveErase b).flash with current := none, suspended := none } }, ?_,
      partErased_of_cells (n := s.free) rfl, rfl⟩
    simp only [exec, execEraseAbortEnd, aborting_of hr ha, hj]
    rfl
  · refine ⟨({ s.leaveErase b with flash := { (s.leaveErase b).flash with current := none, suspended := none } } : State).burnRequeue x,
      ?_, partErased_of_cells (n := s.free) rfl, rfl, rfl, burnRequeue_requeued x rfl, rfl, rfl⟩
    simp only [exec, execEraseAbortEnd, aborting_of hr ha, hj]
    exact congrArg Host.Outcome.next (burnTakes_stopped hx hb)

end FlashEnds
end Sys2Proof.Machine

/-! PROOFS. Burns: their results, the boundary between jobs, and the jobs (R85 to R97). -/

namespace Sys2Proof.Machine
open Sys2Proof Sys2Proof.Machine Sys2Proof.Machine.Claims

section Burns

variable {s t u v : State} {b : Burn}

theorem PerSource.set_get {α : Type} (f : PerSource α) (r : Source) : f.set r (f.get r) = f := by cases r <;> rfl

theorem PerSource.set_set {α : Type} (f : PerSource α) (r : Source) (x y : α) : (f.set r x).set r y = f.set r y := by cases r <;> rfl

/-! ## The burn side of the state -/

/-- One state with the burn side of another, as `Claims.BurnFrame` says. -/
def State.withBurnSide (s t : State) : State := { s with
  img := t.img
  stg := { s.stg with outbox := t.stg.outbox, lost := t.stg.lost }
  flash := { s.flash with current := t.flash.current, burn := t.flash.burn }
  dram := { s.dram with waiting := s.dram.waiting.set .burn (t.dram.waiting.get .burn) }
  mir := { s.mir with dirty := t.mir.dirty, attention := t.mir.attention } }

theorem burnFrame_iff : BurnFrame s t ↔ t = s.withBurnSide t ∧ CausesKept s t [.burn, .lost] := Iff.rfl

theorem Claims.BurnFrame.trans (h : BurnFrame s t) (k : BurnFrame t u) : BurnFrame s u := by
  rw [burnFrame_iff] at *
  obtain ⟨h1, h2⟩ := h
  obtain ⟨k1, k2⟩ := k
  refine ⟨?_, h2.trans k2 (by simp)⟩
  calc u = t.withBurnSide u := k1
    _ = (s.withBurnSide t).withBurnSide u := congrArg (State.withBurnSide · u) h1
    _ = s.withBurnSide u := by simp [State.withBurnSide, PerSource.set_set]

/-- A state with the DRAM request of BURN as it was. -/
theorem burnFrame_of_eq (h : t = { s with
    img := t.img
    flash := { s.flash with current := t.flash.current, burn := t.flash.burn }
    stg := { s.stg with outbox := t.stg.outbox, lost := t.stg.lost }
    mir := { s.mir with dirty := t.mir.dirty, attention := t.mir.attention } }) (hk : CausesKept s t [.burn, .lost]) : BurnFrame s t := by
  have hw : t.dram.waiting = s.dram.waiting := by rw [h]
  refine burnFrame_iff.mpr ⟨?_, hk⟩
  rw [State.withBurnSide, hw, PerSource.set_get]
  exact h

theorem deviceFreed_burnFrame (s : State) : BurnFrame s s.deviceFreed := burnFrame_of_eq rfl (causesKept_of_eq rfl)

/-- The burn in progress changes. -/
theorem burn_burnFrame (x : Option Burn) (s : State) : BurnFrame s { s with img := { s.img with burn := x } } :=
  burnFrame_of_eq rfl (causesKept_of_eq rfl)

/-! ## Results (R94) -/

/-- A state once a burn's slot is freed and its result listed, before the report. -/
def State.resultListed (i : SlotId) (block code : Nat) (sum : Sum16) (s : State) : State := { s with
  img.slots := s.img.slots.set i .empty
  img.results := (⟨block, code, sum⟩ :: s.img.results).take 8
  mir.dirty := true }

theorem burnResult_eq (i : SlotId) (block code : Nat) (sum : Sum16) (s : State) : s.burnResult i block code sum =
    ((s.resultListed i block code sum).offerNow 0xF4#8 false [numWord block, numWord code, numWord sum.toNat]).raise .burn := rfl

theorem burnResult_burnFrame (i : SlotId) (block code : Nat) (sum : Sum16) (s : State) : BurnFrame s (s.burnResult i block code sum) := by
  refine burnFrame_of_eq ?_ ?_
  · rw [burnResult_eq, offerNow_eq]
    rfl
  · rw [burnResult_eq]
    have h := (offerNow_offered 0xF4#8 false [numWord block, numWord code, numWord sum.toNat] (s.resultListed i block code sum)).causesKept
    exact CausesKept.trans h (raise_causesKept .burn _) (by simp)

/-- The result of a burn in a state that differs from `s` in nothing a result shows but causes raised meanwhile. -/
theorem burnResult_given {cs : List Cause} (hsl : v.img.slots = s.img.slots) (hr : v.img.results = s.img.results)
    (ho : v.stg = s.stg) (hp : v.stamp = s.stamp) (hk : CausesKept s v cs)
    (i : SlotId) (block code : Nat) (sum : Sum16) : BurnResultGiven s (v.burnResult i block code sum) i block code sum cs := by
  rw [burnResult_eq]
  refine ⟨?_, ?_, ?_, raise_waiting .burn _, rfl⟩
  · rw [offerNow_eq, ← hsl]
    rfl
  · rw [offerNow_eq, ← hr]
    rfl
  · have h := offerNow_offered 0xF4#8 false [numWord block, numWord code, numWord sum.toNat] (v.resultListed i block code sum)
    have hstamp : (v.resultListed i block code sum).stamp = s.stamp := hp
    rw [hstamp] at h
    have h' : Offered s _ _ cs := h.before (congrArg Staging.outbox ho) (congrArg Staging.lost ho) hk (by simp)
    exact h'.after rfl rfl (raise_causesKept .burn _) (by simp) (fun c hc => by simpa [or_comm] using hc)

theorem burnEnd_burnFrame (b : Burn) (code : Nat) (sum : Sum16) (s : State) : BurnFrame s (s.burnEnd b code sum) :=
  (burn_burnFrame none s).trans (burnResult_burnFrame _ _ _ _ _)

theorem burnEnd_none (b : Burn) (code : Nat) (sum : Sum16) (s : State) : (s.burnEnd b code sum).img.burn = none := by
  rw [State.burnEnd, burnResult_eq, offerNow_eq]
  rfl

theorem burnEnd_given {cs : List Cause} (hi : v.img = s.img) (ho : v.stg = s.stg) (hp : v.stamp = s.stamp) (hk : CausesKept s v cs)
    (b : Burn) (code : Nat) (sum : Sum16) :
    BurnResultGiven s (v.burnEnd b code sum) b.slot b.block code sum cs ∧ (v.burnEnd b code sum).img.burn = none :=
  ⟨burnResult_given (v := { v with img := { v.img with burn := none } }) (show v.img.slots = _ by rw [hi]) (show v.img.results = _ by rw [hi])
    ho hp hk _ _ _ _, burnEnd_none b code sum v⟩

/-! ## Boundaries between jobs (R96; log 26) -/

/-- A state that shows a boundary between jobs as `s` does: the images but for the burn, the reports, the power state and what waits. -/
structure AtBoundary (s v : State) : Prop where
  img : v.img = { s.img with burn := v.img.burn }
  stg : v.stg = s.stg
  mir : v.mir = s.mir
  power : v.pow.state = s.pow.state
  jobs : v.flash.burn = s.flash.burn
  waiting : v.dram.waiting = s.dram.waiting
  prof : v.prof = s.prof

theorem burnNext_run (h : v.pow.state = .run) (b : Burn) : v.burnNext b = v.burnOffer b := by simp [State.burnNext, h]

theorem burnNext_pauses (h : v.pow.state ≠ .run) (b : Burn) :
    v.burnNext b = { v with img := { v.img with burn := some { b with act := .idle, paused := true } } } := by
  simp [State.burnNext, h]

theorem burnNext_paused (hv : AtBoundary s v) (h : s.pow.state ≠ .run) (b : Burn) : Pauses s (v.burnNext b) b := by
  rw [burnNext_pauses (by rw [hv.power]; exact h), Pauses, hv.img]
  exact ⟨rfl, hv.jobs, hv.waiting⟩

theorem offerBurnJob_offers (hv : AtBoundary s v) (b : Burn) (j : Job) : OffersJob s (v.offerBurnJob b j) b j := by
  refine ⟨?_, rfl⟩
  rw [State.offerBurnJob, hv.img]

theorem startReading_starts (hv : AtBoundary s v) (b : Burn) :
    StartsReads s (v.startReading b) b (.reading 0 []) (s.prof.shadowBase / 4 + b.slot.val * 1024) := by
  refine ⟨?_, ?_⟩
  · rw [State.startReading, State.present, hv.img]
  · simp [State.startReading, State.present, State.shadowRead, State.shadowOff, hv.prof]

theorem startFetch_starts (hv : AtBoundary s v) (b : Burn) (page : Nat) :
    StartsReads s (v.startFetch b page) b (.fetching 0 []) (s.prof.shadowBase / 4 + b.slot.val * 1024 + 64 * page) := by
  refine ⟨?_, ?_⟩
  · rw [State.startFetch, State.present, hv.img]
  · have h64 : 16 * (4 * page) = 64 * page := by omega
    simp [State.startFetch, State.present, State.shadowRead, State.shadowOff, hv.prof, h64]

theorem burnOffer_reports (b : Burn) (v : State) : NothingReported v (v.burnOffer b) := by
  unfold State.burnOffer
  split <;> exact ⟨rfl, rfl⟩

theorem burnNext_reports (hv : AtBoundary s v) (b : Burn) : NothingReported s (v.burnNext b) := by
  rw [NothingReported, ← hv.stg, ← hv.mir, State.burnNext]
  split
  · exact burnOffer_reports b v
  · exact ⟨rfl, rfl⟩

theorem burnNext_job (hv : AtBoundary s v) {j : Job} (h : ∀ v : State, v.burnOffer b = v.offerBurnJob b j) : JobNext s (v.burnNext b) b j := by
  refine ⟨burnNext_reports hv b, fun hr => ?_, fun hr => burnNext_paused hv hr b⟩
  rw [burnNext_run (by rw [hv.power]; exact hr), h]
  exact offerBurnJob_offers hv b j

theorem burnNext_reads (hv : AtBoundary s v) {act : BurnAct} {off : Nat} (h : StartsReads s (v.burnOffer b) b act off) :
    ReadsNext s (v.burnNext b) b act off := by
  refine ⟨burnNext_reports hv b, fun hr => ?_, fun hr => burnNext_paused hv hr b⟩
  rw [burnNext_run (by rw [hv.power]; exact hr)]
  exact h

/-- The pages of a program set still to do: the next one is fetched, after the last the verify begins with page 0. -/
theorem burnNext_pages (hv : AtBoundary s v) (b : Burn) (pages : List Nat) :
    (∀ page more, pages = page :: more → ReadsNext s (v.burnNext { b with held := afterPages pages }) { b with held := .s5 (some (page :: more)) }
      (.fetching 0 []) (s.prof.shadowBase / 4 + b.slot.val * 1024 + 64 * page)) ∧
    (pages = [] → ReadsNext s (v.burnNext { b with held := afterPages pages }) { b with held := .s6 0 0#16 false }
      (.fetching 0 []) (s.prof.shadowBase / 4 + b.slot.val * 1024)) := by
  refine ⟨fun page more hp => ?_, fun hp => ?_⟩
  · subst hp
    exact burnNext_reads hv (startFetch_starts hv { b with held := .s5 (some (page :: more)) } page)
  · subst hp
    exact burnNext_reads hv (startFetch_starts hv { b with held := .s6 0 0#16 false } 0)

theorem present_burnFrame (q : DramReq) (s : State) : BurnFrame s (s.present .burn q) := by
  refine burnFrame_iff.mpr ⟨?_, causesKept_of_eq rfl⟩
  simp [State.withBurnSide, State.present]

theorem burnOffer_burnFrame (b : Burn) (s : State) : BurnFrame s (s.burnOffer b) := by
  have hjob : ∀ j, BurnFrame s (s.offerBurnJob b j) := fun j => burnFrame_of_eq rfl (causesKept_of_eq rfl)
  have hread : ∀ x q, BurnFrame s (({ s with img.burn := some x } : State).present .burn q) := fun x q =>
    (burn_burnFrame (some x) s).trans (present_burnFrame q _)
  unfold State.burnOffer
  split
  · exact burnFrame_of_eq rfl (causesKept_of_eq rfl)
  · exact hread _ _
  · exact hjob _
  · exact hjob _
  · exact hjob _
  · exact hread _ _
  · exact hread _ _
  · exact burnFrame_of_eq rfl (causesKept_of_eq rfl)
  · exact hread _ _

theorem burnNext_burnFrame (b : Burn) (s : State) : BurnFrame s (s.burnNext b) := by
  unfold State.burnNext
  split
  · exact burnOffer_burnFrame b s
  · exact burn_burnFrame _ s

/-! ## An idle slot (R85) -/

/-- Settles O42. -/
theorem idleSlotIsAbandoned : Obligations.IdleSlotIsAbandoned := by
  unfold Obligations.IdleSlotIsAbandoned
  intro s i b x hi hs hp hc
  have hrun : (s.clockRuns && s.pow.state == .run && !s.slotInCarry i) = true := by
    simp [(State.clockRuns_iff s).mpr ⟨hs, by simp [hp], by simp [hp]⟩, hp, hc]
  have hpass : (s.pass (s.prof.imageIdle * 1000 - x)).img.queue = s.img.queue := by
    unfold State.pass
    split <;> rfl
  refine ⟨_, (s.pass (s.prof.imageIdle * 1000 - x)).burnResult i b 8 0#16, rfl, ?_,
    burnResult_given rfl rfl rfl rfl (causesKept_of_eq (cs := []) rfl) _ _ _ _, burnResult_burnFrame _ _ _ _ _, ?_, ?_⟩
  · simp only [exec, execImageIdleExpiry, hi]
    exact congrArg Host.Outcome.next (if_pos hrun)
  · rw [burnResult_eq, offerNow_eq]
    exact hpass
  · rw [burnResult_eq, offerNow_eq]
    exact pass_burn _ s

/-! ## The start of a burn (R86, R87) -/

theorem imageForbidden_iff (l : LockVals) (b : Nat) : imageForbidden l b = true ↔ refusesBlock l b := by
  simp only [imageForbidden, refusesBlock, Bool.or_eq_true, Bool.and_eq_true, decide_eq_true_eq, Bool.not_eq_true', Bool.and_eq_false_iff,
    decide_eq_false_iff_not, or_assoc, Decidable.not_and_iff_not_or_not]

theorem imageForbidden_false {l : LockVals} {b : Nat} (h : ¬ refusesBlock l b) : imageForbidden l b = false := by
  rwa [← imageForbidden_iff, Bool.not_eq_true] at h

theorem burnGrant_some {q : DramReq} (h : s.dram.grant = some (.source .burn q)) : s.burnGrant = some q := by simp [State.burnGrant, h]

theorem burnGrant_none (h : ∀ q, s.dram.grant ≠ some (.source .burn q)) : s.burnGrant = none := by
  unfold State.burnGrant
  split
  · next q hq => exact absurd hq (h q)
  · rfl

theorem burnStart_granted {q : DramReq} (h : s.dram.grant = some (.source .burn q)) : exec .burnStart s = .next s := by
  have hn : (s.burnGrant.isNone) = false := by simp [burnGrant_some h]
  simp only [exec, execBurnStart, hn, Bool.and_false]
  split
  · split <;> rfl
  · rfl

/-- A state once the front slot burns and its burn is in progress. -/
def State.burnBegun (i : SlotId) (b : Nat) (more : List SlotId) (s : State) : State :=
  { s with img := { s.img with slots := s.img.slots.set i (.burning b), queue := more, burn := some (newBurn i b) } }

theorem burnStart_eq {i : SlotId} {b : Nat} {more : List SlotId} (hq : s.img.queue = i :: more) (hi : s.img.slots.get i = .queued b)
    (hs : s.su.supply = .running) (he : s.dram.entryReq = none) (hp : s.pow.state = .run) (hb : s.img.burn = none)
    (hg : ∀ q, s.dram.grant ≠ some (.source .burn q)) : exec .burnStart s =
      .next ((s.burnBegun i b more).burnStep1 (newBurn i b)) := by
  have hok : (s.working && s.pow.state == .run && s.img.burn.isNone && s.burnGrant.isNone) = true := by
    simp [State.working, (State.clockRuns_iff s).mpr ⟨hs, by simp [hp], by simp [hp]⟩, he, hp, hb, burnGrant_none hg]
  simp only [exec, execBurnStart, hq, hi]
  exact congrArg Host.Outcome.next (if_pos hok)

theorem burnStep1_refused {x : Burn} (h : refusesBlock s.lock x.block) : s.burnStep1 x = s.burnEnd x 2 0#16 := by
  simp [State.burnStep1, (imageForbidden_iff _ _).mpr h]

theorem burnStep1_passes {x : Burn} (h : ¬ refusesBlock s.lock x.block) :
    s.burnStep1 x = s.burnNext { x with held := if x.block = 0 then .s2 else .s3 } := by
  simp [State.burnStep1, imageForbidden_false h]

theorem burnStep1_burnFrame (x : Burn) (s : State) : BurnFrame s (s.burnStep1 x) := by
  unfold State.burnStep1
  split
  · exact burnEnd_burnFrame _ _ _ _
  · exact burnNext_burnFrame _ _

/-- Settles O43. -/
theorem burnStartChecksTheLock : Obligations.BurnStartChecksTheLock := by
  unfold Obligations.BurnStartChecksTheLock
  refine ⟨fun s q hg => burnStart_granted hg, ?_⟩
  intro s i b more hq hi hs he hp hb hg u burn
  refine ⟨_, burnStart_eq hq hi hs he hp hb hg, ?_, fun hr => ?_, fun hr h0 => ?_, fun hr h0 => ?_⟩
  · exact (burnFrame_of_eq (t := s.burnBegun i b more) rfl (causesKept_of_eq rfl)).trans
      (burnStep1_burnFrame _ _)
  · rw [burnStep1_refused hr]
    exact ⟨burnResult_given rfl rfl rfl rfl (causesKept_of_eq rfl) _ _ _ _, burnEnd_none _ _ _ _, by simp [State.burnBegun]⟩
  · subst h0
    rw [burnStep1_passes hr, burnNext_run (v := s.burnBegun i 0 more) hp]
    exact startReading_starts (s := u) (v := s.burnBegun i 0 more) ⟨rfl, rfl, rfl, rfl, rfl, rfl, rfl⟩ (burn .s2)
  · rw [burnStep1_passes hr, burnNext_run (v := s.burnBegun i b more) hp]
    simp only [newBurn, h0, if_neg, not_false_eq_true]
    exact offerBurnJob_offers (s := u) (v := s.burnBegun i b more) ⟨rfl, rfl, rfl, rfl, rfl, rfl, rfl⟩ (burn .s3) (.burnBlank b)

end Burns
end Sys2Proof.Machine

/-! PROOFS. The jobs of a burn and the step each decides (R89 to R92, R96, R97). -/

namespace Sys2Proof.Machine
open Sys2Proof Sys2Proof.Machine Sys2Proof.Machine.Claims

section BurnJobs

variable {s v : State} {b : Burn} {r : Running} {ds : List Defect}

/-! ## What a step of a burn leaves of the flash unit and of the power and profile state -/

theorem burnNext_flash (b : Burn) (v : State) : (v.burnNext b).flash = { v.flash with burn := (v.burnNext b).flash.burn } := by
  unfold State.burnNext State.burnOffer
  split
  · split <;> rfl
  · rfl

theorem burnNext_current (b : Burn) (v : State) : (v.burnNext b).flash.current = v.flash.current := by rw [burnNext_flash]

theorem burnNext_cells (b : Burn) (v : State) : (v.burnNext b).flash.cells = v.flash.cells := by rw [burnNext_flash]

theorem burnEnd_flash (b : Burn) (code : Nat) (sum : Sum16) (v : State) : (v.burnEnd b code sum).flash = v.flash := by
  rw [State.burnEnd, burnResult_eq, offerNow_eq]
  rfl

theorem burnEnd_lock (b : Burn) (code : Nat) (sum : Sum16) (v : State) :
    (v.burnEnd b code sum).lock = v.lock ∧ (v.burnEnd b code sum).su = v.su ∧ (v.burnEnd b code sum).prof = v.prof := by
  rw [State.burnEnd, burnResult_eq, offerNow_eq]
  exact ⟨rfl, rfl, rfl⟩

/-- A result given where nothing but the flash unit has changed. -/
theorem deviceFreed_given (b : Burn) (code : Nat) (sum : Sum16) (s : State) :
    BurnResultGiven s (s.deviceFreed.burnEnd b code sum) b.slot b.block code sum ∧ (s.deviceFreed.burnEnd b code sum).img.burn = none :=
  burnEnd_given rfl rfl rfl (causesKept_of_eq rfl) b code sum

theorem deviceFreed_burnEnd_frame (b : Burn) (code : Nat) (sum : Sum16) (s : State) : BurnFrame s (s.deviceFreed.burnEnd b code sum) :=
  (deviceFreed_burnFrame s).trans (burnEnd_burnFrame b code sum s.deviceFreed)

theorem deviceFreed_burnNext_frame (b : Burn) (s : State) : BurnFrame s (s.deviceFreed.burnNext b) :=
  (deviceFreed_burnFrame s).trans (burnNext_burnFrame b s.deviceFreed)

theorem atBoundary_deviceFreed (s : State) : AtBoundary s s.deviceFreed := ⟨rfl, rfl, rfl, rfl, rfl, rfl, rfl⟩

/-! ## A burn that PF-DRAIN has stopped (R97) -/

theorem programEnd_burn {page : Nat} {ws : List Word} (hd : ds.all (Defect.wf 64) = true) (hj : JobAtDevice s (.burnProgram b.block page ws)) :
    exec (.programEnd ds) s = .next ((s.programPage b.block page ws ds).deviceFreed.burnTakes State.burnProgrammed) := by
  rw [programEnd_eq hd hj.1]
  dsimp only
  rw [finishJob_freed (s := s.programPage b.block page ws ds) hj.2]

/-- A stopped burn's PROGRAM, ended or timed out, puts the slot back. -/
theorem stoppedBurn_program {page : Nat} {ws : List Word} (hb : s.img.burn = some b) (ha : b.aborting = true) (hm : s.memoryWf = true)
    (hj : JobAtDevice s (.burnProgram b.block page ws)) (hr : s.flash.current = some r) (hn : r.abortReq = false) :
    (∀ ds : List Defect, ws.length = 64 → ds.all (Defect.wf 64) = true → ∃ t, exec (.programEnd ds) s = .next t ∧
      Programmed s t b.block page ws ds ∧ t.flash.current = none ∧ Requeued s t b ∧ NothingReported s t) ∧
    ∃ u t, u = s.pass (2 - r.time) ∧ exec .flashTimeout s = .next t ∧ t.flash.current = none ∧ Requeued u t b ∧ NothingReported u t := by
  have hjob := JobAtDevice.job hj hr
  refine ⟨fun ds hl hd => ⟨(s.programPage b.block page ws ds).deviceFreed.burnRequeue b, ?_,
    programmed_of_cells (flashWf_of_memoryWf hm) hl hd rfl, rfl, burnRequeue_requeued b rfl, rfl, rfl⟩, ?_⟩
  · rw [programEnd_burn hd hj]
    exact congrArg Host.Outcome.next (burnTakes_stopped hb ha)
  · refine ⟨_, ((s.pass (2 - r.time)).cutOff r.job).deviceFreed.burnRequeue b, rfl, ?_, rfl, ?_, ?_⟩
    · have hx : ((s.pass (2 - r.time)).cutOff r.job).deviceFreed.img.burn = some b := by
        rw [cutOff_eq]
        exact (pass_burn _ s).trans hb
      rw [flashTimeout_burn hr hn hj.2 (lim := 2) (by rw [hjob]; rfl) (by rw [hjob]; rfl), burnTakes_stopped hx ha]
    · exact burnRequeue_requeued b (by rw [cutOff_eq]; rfl)
    · rw [cutOff_eq]
      exact ⟨rfl, rfl⟩

/-! ## The blank check and the erase (R89) -/

theorem blankCheckEnd_burn {n : Nat} (hb : s.img.burn = some b) (ha : b.aborting = false) (hj : JobAtDevice s (.burnBlank n)) :
    exec .blankCheckEnd s = .next (s.deviceFreed.burnBlanked b (blockBlank s.flash.cells n)) := by
  rw [blankCheckEnd_eq hj.1]
  dsimp only
  rw [finishJob_freed hj.2, burnTakes_step (s := s.deviceFreed) hb ha]
  rfl

theorem burnBlanked_eraseFailed (h : b.held = .s4Blank) (v : State) : v.burnBlanked b false = v.burnEnd b 4 0#16 := by
  simp [State.burnBlanked, h]

theorem burnBlanked_forbidden (h : b.held = .s3) (hl : v.lock.imageErase = true) : v.burnBlanked b false = v.burnEnd b 2 0#16 := by
  simp [State.burnBlanked, h, hl]

theorem burnBlanked_erases (h : b.held = .s3) (hl : v.lock.imageErase = false) :
    v.burnBlanked b false = v.burnNext { b with held := .s4Erase } := by
  simp [State.burnBlanked, h, hl]

theorem burnBlanked_frame_current (b : Burn) (blank : Bool) (v : State) :
    BurnFrame v (v.burnBlanked b blank) ∧ (v.burnBlanked b blank).flash.current = v.flash.current := by
  have hnext : ∀ x, BurnFrame v (v.burnNext x) ∧ (v.burnNext x).flash.current = v.flash.current := fun x =>
    ⟨burnNext_burnFrame x v, burnNext_current x v⟩
  have hend : ∀ code, BurnFrame v (v.burnEnd b code 0#16) ∧ (v.burnEnd b code 0#16).flash.current = v.flash.current := fun code =>
    ⟨burnEnd_burnFrame b code 0#16 v, by rw [burnEnd_flash]⟩
  unfold State.burnBlanked
  split
  · exact hnext _
  · split
    · exact hend 4
    · split
      · exact hend 2
      · exact hnext _

theorem eraseEnd_burn (hb : s.img.burn = some b) (ha : b.aborting = false) (hj : JobAtDevice s (.burnErase b.block))
    (hr : s.flash.current = some r) (hn : r.abortReq = false) (hd : ds.all (Defect.wf 1024) = true) :
    exec (.eraseEnd ds) s = .next ((s.erasedBlock b.block ds).deviceFreed.burnNext { b with held := .s4Blank }) := by
  rw [eraseEnd_eq hd (runningJob_of hj hr hn)]
  dsimp only
  rw [finishJob_freed (s := s.erasedBlock b.block ds) hj.2, burnTakes_step (s := (s.erasedBlock b.block ds).deviceFreed) hb ha]

/-! ## The verify (R91, R92) -/

theorem verifyEnd_burn {page : Nat} {ws : List Word} {start : Sum16} (hb : s.img.burn = some b) (ha : b.aborting = false)
    (hj : JobAtDevice s (.burnVerify b.block page ws start)) : exec .verifyEnd s =
      .next (s.deviceFreed.burnVerified b (decide (flashPage s.flash.cells b.block page = ws))
        (checksum start (bytesOf (flashPage s.flash.cells b.block page)))) := by
  simp only [exec, execVerifyEnd, hj.1]
  rw [finishJob_freed hj.2, burnTakes_step (s := s.deviceFreed) hb ha, beq_decides]

theorem burnVerified_more {page : Nat} {x : Sum16} {bad : Bool} (h : b.held = .s6 page x bad) (hp : page < 15) (m : Bool) (sum : Sum16) (v : State) :
    v.burnVerified b m sum = v.burnNext { b with held := .s6 (page + 1) sum (bad || !m) } := by
  simp [State.burnVerified, h, hp]

theorem burnVerified_last {page : Nat} {x : Sum16} {bad : Bool} (h : b.held = .s6 page x bad) (hp : 15 ≤ page) (m : Bool) (sum : Sum16) (v : State) :
    v.burnVerified b m sum = if (bad || !m) = true then v.burnEnd b 5 sum else (v.burnStep7 b).burnEnd b 1 sum := by
  simp [State.burnVerified, h, Nat.not_lt.mpr hp]

theorem burnStep7_other (h : b.block ≠ 0) (v : State) : v.burnStep7 b = v := by simp [State.burnStep7, h]

theorem burnStep7_profile (h : b.block = 0) (v : State) :
    v.burnStep7 b = { v with lock := b.newLock.getD v.lock, su.profState := .pending, mir.dirty := true } := by
  simp [State.burnStep7, h]

/-- Settles O45. -/
theorem burnJobsDecideTheNextStep : Obligations.BurnJobsDecideTheNextStep := by
  unfold Obligations.BurnJobsDecideTheNextStep
  refine ⟨fun s b page ws r hb ha hm hj hr hn => stoppedBurn_program hb ha hm hj hr hn, ?_⟩
  intro s b hb ha hm base blank
  have hwf := flashWf_of_memoryWf hm
  refine ⟨fun hj => ?_, fun r hj hr hn ds hd => ?_, fun page more ws hj hl hheld ds hd => ?_, fun r j hj hjob hr hn => ?_, ?_⟩
  · have hend := blankCheckEnd_burn hb ha hj
    obtain ⟨hframe, hcurrent⟩ := burnBlanked_frame_current b (blockBlank s.flash.cells b.block) s.deviceFreed
    refine ⟨_, hend, (deviceFreed_burnFrame s).trans hframe, hcurrent, fun hk => ?_, fun hk hheld => ?_, fun hk hheld hl => ?_, fun hk hheld hl => ?_⟩
    · rw [(blockBlank_reads hwf).mpr hk]
      exact burnNext_reads (atBoundary_deviceFreed s) (startReading_starts (atBoundary_deviceFreed s) { b with held := .s5 none })
    all_goals rw [Bool.eq_false_iff.mpr (fun h => hk ((blockBlank_reads hwf).mp h))]
    · rw [burnBlanked_eraseFailed hheld]
      exact deviceFreed_given b 4 0#16 s
    · rw [burnBlanked_forbidden (v := s.deviceFreed) hheld hl]
      exact deviceFreed_given b 2 0#16 s
    · rw [burnBlanked_erases (v := s.deviceFreed) hheld hl]
      exact burnNext_job (atBoundary_deviceFreed s) (fun _ => rfl)
  · refine ⟨_, eraseEnd_burn hb ha hj hr hn hd, erasedBlock_of_cells hd (by rw [burnNext_cells]; rfl), ?_⟩
    exact burnNext_job (v := (s.erasedBlock b.block ds).deviceFreed) ⟨rfl, rfl, rfl, rfl, rfl, rfl, rfl⟩ (fun _ => rfl)
  · have hnext : (s.programPage b.block page ws ds).deviceFreed.burnTakes State.burnProgrammed =
        (s.programPage b.block page ws ds).deviceFreed.burnNext { b with held := afterPages more } := by
      rw [burnTakes_step (s := (s.programPage b.block page ws ds).deviceFreed) hb ha, State.burnProgrammed, hheld]
    obtain ⟨hmore, hlast⟩ := burnNext_pages (s := s) (v := (s.programPage b.block page ws ds).deviceFreed) ⟨rfl, rfl, rfl, rfl, rfl, rfl, rfl⟩ b more
    exact ⟨_, (programEnd_burn hd hj).trans (congrArg Host.Outcome.next hnext),
      programmed_of_cells hwf hl hd (by rw [burnNext_cells]; rfl), hmore, hlast⟩
  · have hrjob : r.job = j := JobAtDevice.job hj hr
    obtain ⟨lim, hlim, hburn⟩ : ∃ lim, j.limit = some lim ∧ j.isBurn = true := by
      rcases hjob with rfl | ⟨page, ws, rfl⟩ <;> exact ⟨_, rfl, rfl⟩
    have hx : ((s.pass (lim - r.time)).cutOff r.job).deviceFreed.img.burn = some b := by
      rw [cutOff_eq]
      exact (pass_burn _ s).trans hb
    refine ⟨_, _, lim, hlim, rfl, flashTimeout_burn hr hn hj.2 (hrjob ▸ hlim) (hrjob ▸ hburn), ?_⟩
    rw [burnTakes_step hx ha, ← and_assoc]
    refine ⟨burnEnd_given ?_ ?_ ?_ ?_ b 6 0#16, by rw [burnEnd_flash]; rfl⟩
    all_goals rw [cutOff_eq]
    · exact rfl
    · exact rfl
    · exact rfl
    · exact causesKept_of_eq rfl
  · intro page ws start bad hj hheld read sum bad'
    refine ⟨_, verifyEnd_burn hb ha hj, ?_⟩
    by_cases hp : page < 15
    · rw [burnVerified_more hheld hp]
      refine ⟨burnNext_cells _ _, burnNext_current _ _, fun _ => ⟨?_, deviceFreed_burnNext_frame _ s⟩, fun h => absurd hp (by omega),
        fun h => absurd hp (by omega), fun h => absurd hp (by omega)⟩
      exact burnNext_reads (atBoundary_deviceFreed s) (startFetch_starts (atBoundary_deviceFreed s) { b with held := .s6 (page + 1) sum bad' } (page + 1))
    · rw [burnVerified_last hheld (Nat.le_of_not_lt hp)]
      by_cases hbad : bad' = true
      · rw [if_pos hbad]
        refine ⟨by rw [burnEnd_flash]; rfl, by rw [burnEnd_flash]; rfl, fun h => absurd h hp, fun _ _ => ?_, fun _ h => by simp [h] at hbad,
          fun _ h => by simp [h] at hbad⟩
        exact ⟨(deviceFreed_given b 5 sum s).1, (deviceFreed_given b 5 sum s).2, deviceFreed_burnEnd_frame b 5 sum s⟩
      · rw [if_neg hbad]
        by_cases h0 : b.block = 0
        · rw [burnStep7_profile h0]
          refine ⟨by rw [burnEnd_flash]; rfl, by rw [burnEnd_flash]; rfl, fun h => absurd h hp, fun _ h => absurd h hbad, fun _ _ h => absurd h0 h,
            fun _ _ _ => ?_⟩
          obtain ⟨hlock, hsu, hprof⟩ := burnEnd_lock b 1 sum { s.deviceFreed with
            lock := b.newLock.getD s.deviceFreed.lock, su.profState := .pending, mir.dirty := true }
          obtain ⟨hgiven, hnone⟩ := burnEnd_given (s := s) (v := { s.deviceFreed with
            lock := b.newLock.getD s.deviceFreed.lock, su.profState := .pending, mir.dirty := true }) rfl rfl rfl (causesKept_of_eq rfl) b 1 sum
          exact ⟨hgiven, hnone, fun l hl => by rw [hlock, hl]; rfl, by rw [hsu], by rw [hprof]; rfl⟩
        · rw [burnStep7_other h0]
          refine ⟨by rw [burnEnd_flash]; rfl, by rw [burnEnd_flash]; rfl, fun h => absurd h hp, fun _ h => absurd h hbad, fun _ _ _ => ?_,
            fun _ _ h => absurd h h0⟩
          exact ⟨(deviceFreed_given b 1 sum s).1, (deviceFreed_given b 1 sum s).2, deviceFreed_burnEnd_frame b 1 sum s⟩

end BurnJobs
end Sys2Proof.Machine

/-! PROOFS. The reads of a burn: its shadow readings and source fetches run to their end (R66, R88, R90, R125; log 13). -/

namespace Sys2Proof.Machine
open Sys2Proof Sys2Proof.Machine Sys2Proof.Machine.Claims

section BurnReads

variable {s v : State} {b : Burn} {off : Nat}

/-- A state whose grant has ended and left nothing else. -/
def State.ungranted (s : State) : State := { s with dram := { s.dram with grant := none } }

/-- The state at the end of a burn's read. -/
def State.burnReadDone (off : Nat) (s : State) : State := (s.carryOut (.read off 16)).endGrant

/-! ## The end of one read -/

theorem burnReadDone_eq (he : s.dram.entryReq = none) :
    s.burnReadDone off = State.eccRead true (readDram s.dram.cells off 16) s.ungranted := carried_eq (.read off 16) (.inl he)

theorem burnReadDone_clean (he : s.dram.entryReq = none) (h : ∀ x ∈ readDram s.dram.cells off 16, ∃ w, x.2 = .clean w) :
    s.burnReadDone off = s.ungranted := by
  rw [burnReadDone_eq he, eccRead_clean true _ s.ungranted h]

/-- A read with an Uncorrectable word raises FAULT and leaves all that the burn reports and holds. -/
theorem burnReadDone_bad (he : s.dram.entryReq = none) (h : ∃ x ∈ readDram s.dram.cells off 16, x.2.bad = true) :
    (s.burnReadDone off).img = s.img ∧ (s.burnReadDone off).stg = s.stg ∧ (s.burnReadDone off).stamp = s.stamp ∧
    CausesKept s (s.burnReadDone off) [.fault] ∧ (s.burnReadDone off).mir.attention.get Cause.fault.ix = .waiting := by
  rw [burnReadDone_eq he]
  obtain ⟨n, m, a, hv, -, -, hw, hk⟩ := eccRead_of_bad true s.ungranted h
  rw [hv]
  exact ⟨rfl, rfl, rfl, fun c hc => hk c (by simpa using hc), hw⟩

theorem burnEnd_waiting {c : Cause} (hc : c ≠ .burn) (h : v.mir.attention.get c.ix = .waiting) (b : Burn) (code : Nat) (sum : Sum16) :
    (v.burnEnd b code sum).mir.attention.get c.ix = .waiting := by
  rw [State.burnEnd, burnResult_eq, State.raise_mir]
  exact (Eight.get_set_ne _ _ _ _ (Cause.ix_ne c .burn hc)).trans (offer_waiting _ h)

theorem burnInGrant_eq (hw : s.dram.waiting.get .burn = none) : s.burnInGrant = s.img.burn := by simp [State.burnInGrant, hw]

theorem shadowReadComplete_bad {k : Nat} {ws : List Word} (hb : s.img.burn = some b) (hw : s.dram.waiting.get .burn = none)
    (hg : s.dram.grant = some (.source .burn (.read off 16))) (ha : b.act = .reading k ws)
    (h : ∃ x ∈ readDram s.dram.cells off 16, x.2.bad = true) :
    exec .burnShadowReadComplete s = .next ((s.burnReadDone off).burnEnd b 7 0#16) := by
  simp only [exec, execBurnShadowReadComplete, burnGrant_some hg, (burnInGrant_eq hw).trans hb, ha]
  exact congrArg Host.Outcome.next (if_pos (anyBad_true _ h))

theorem shadowReadComplete_last {ws : List Word} (hb : s.img.burn = some b) (hw : s.dram.waiting.get .burn = none)
    (hg : s.dram.grant = some (.source .burn (.read off 16))) (ha : b.act = .reading 63 ws)
    (h : anyBad (readDram s.dram.cells off 16) = false) :
    exec .burnShadowReadComplete s = .next ((s.burnReadDone off).burnRead b (ws ++ dataOf (readDram s.dram.cells off 16))) := by
  have hbad : ¬ anyBad (readsOf s.dram.cells (.read off 16)) = true := by simp [readsOf, h]
  simp only [exec, execBurnShadowReadComplete, burnGrant_some hg, (burnInGrant_eq hw).trans hb, ha]
  exact congrArg Host.Outcome.next (if_neg hbad)

theorem sourceFetchComplete_ends {k : Nat} {ws : List Word} (hb : s.img.burn = some b) (hw : s.dram.waiting.get .burn = none)
    (hg : s.dram.grant = some (.source .burn (.read off 16))) (ha : b.act = .fetching k ws)
    (h : anyBad (readDram s.dram.cells off 16) = true ∨ k = 3) : exec .sourceFetchComplete s =
      .next ((s.burnReadDone off).fetched b (anyBad (readDram s.dram.cells off 16)) (ws ++ dataOf (readDram s.dram.cells off 16))) := by
  have hend : (anyBad (readsOf s.dram.cells (.read off 16)) || k == 3) = true := by simpa [readsOf] using h
  simp only [exec, execSourceFetchComplete, burnGrant_some hg, (burnInGrant_eq hw).trans hb, ha]
  exact congrArg Host.Outcome.next (if_pos hend)

theorem grantEnd_burn (hb : s.img.burn = some b) (hw : s.dram.waiting.get .burn = none)
    (hg : s.dram.grant = some (.source .burn (.read off 16))) :
    exec .partRequestGrantEnd s = .next (s.burnReadNext b (.read off 16)) := by
  simp only [exec, execPartRequestGrantEnd, hg, (burnInGrant_eq hw).trans hb]

/-- The burn goes on with one read more behind it. -/
def State.burnReadsOn (b : Burn) (act : BurnAct) (k : Nat) (s : State) : State :=
  ({ s with img.burn := some { b with act := act } } : State).present .burn (s.shadowRead b.slot k)

theorem burnReadNext_reading {k : Nat} {ws : List Word} (ha : b.act = .reading k ws) (hk : k < 63)
    (h : anyBad (readDram s.dram.cells off 16) = false) : s.burnReadNext b (.read off 16) =
      (s.burnReadDone off).burnReadsOn b (.reading (k + 1) (ws ++ dataOf (readDram s.dram.cells off 16))) (k + 1) := by
  have hgo : ¬ (anyBad (readsOf s.dram.cells (.read off 16)) || k == 63) = true := by
    simp [readsOf, h]
    omega
  simp only [State.burnReadNext, ha, if_neg hgo]
  simp [State.burnReadsOn, State.burnReadDone, State.shadowRead, State.shadowOff, readsOf]

theorem burnReadNext_fetching {k : Nat} {ws : List Word} (ha : b.act = .fetching k ws) (hk : k < 3)
    (h : anyBad (readDram s.dram.cells off 16) = false) : s.burnReadNext b (.read off 16) =
      (s.burnReadDone off).burnReadsOn b (.fetching (k + 1) (ws ++ dataOf (readDram s.dram.cells off 16))) (4 * b.fetchPage + k + 1) := by
  have hgo : ¬ (anyBad (readsOf s.dram.cells (.read off 16)) || k == 3) = true := by
    simp [readsOf, h]
    omega
  simp only [State.burnReadNext, ha, if_neg hgo]
  simp [State.burnReadsOn, State.burnReadDone, State.shadowRead, State.shadowOff, readsOf]

theorem burnReadsOn_spec (b : Burn) (act : BurnAct) (k : Nat) (s : State) : BurnFrame s (s.burnReadsOn b act k) ∧
    (s.burnReadsOn b act k).img.burn = some { b with act := act } ∧
    (s.burnReadsOn b act k).dram.waiting.get .burn = some (.read (s.prof.shadowBase / 4 + b.slot.val * 1024 + 16 * k) 16) :=
  ⟨(burn_burnFrame _ s).trans (present_burnFrame _ _), rfl, by simp [State.burnReadsOn, State.present, State.shadowRead, State.shadowOff]⟩

/-! ## What the words read decide (R88, R90, R66, R97) -/

theorem burnRead_step2 (h : b.held = .s2) (words : List Word) (v : State) : v.burnRead b words = v.burnStep2 b words := by
  simp [State.burnRead, h]

theorem burnRead_step5 (h : b.held = .s5 none) (words : List Word) (v : State) :
    v.burnRead b words = v.burnNext { b with held := afterPages (programSet words) } := by
  simp [State.burnRead, h]

theorem burnStep2_invalid {words : List Word} (h : parseProfile (words.take 128) = none) : v.burnStep2 b words = v.burnEnd b 3 0#16 := by
  simp [State.burnStep2, h]

theorem burnStep2_protected {words : List Word} {p : Profile} (h : parseProfile (words.take 128) = some p) (hl : oneWay v.lock p.lock = false) :
    v.burnStep2 b words = v.burnEnd b 2 0#16 := by
  simp [State.burnStep2, h, hl]

theorem burnStep2_valid {words : List Word} {p : Profile} (h : parseProfile (words.take 128) = some p) (hl : oneWay v.lock p.lock = true) :
    v.burnStep2 b words = v.burnNext { b with held := .s3, newLock := some p.lock } := by
  simp [State.burnStep2, h, hl]

theorem burnStep2_burnFrame (b : Burn) (words : List Word) (v : State) : BurnFrame v (v.burnStep2 b words) := by
  unfold State.burnStep2
  split
  · exact burnEnd_burnFrame _ _ _ _
  · split
    · exact burnNext_burnFrame _ _
    · exact burnEnd_burnFrame _ _ _ _

theorem fetchedJob_program {page : Nat} {more : List Nat} (h : b.held = .s5 (some (page :: more))) (words : List Word) :
    b.fetchedJob words = some (.burnProgram b.block page words) := by
  simp [Burn.fetchedJob, h]

theorem fetchedJob_verify {page : Nat} {sum : Sum16} {bad : Bool} (h : b.held = .s6 page sum bad) (words : List Word) :
    b.fetchedJob words = some (.burnVerify b.block page words sum) := by
  simp [Burn.fetchedJob, h]

theorem fetched_stopped (h : b.aborting = true) (bad : Bool) (words : List Word) (v : State) : v.fetched b bad words = v.burnRequeue b := by
  simp [State.fetched, h]

theorem fetched_fault (h : b.aborting = false) (words : List Word) (v : State) : v.fetched b true words = v.burnEnd b 7 0#16 := by
  simp [State.fetched, h]

theorem fetched_job (h : b.aborting = false) {words : List Word} {j : Job} (hj : b.fetchedJob words = some j) (v : State) :
    v.fetched b false words = v.offerBurnJob b j := by
  simp [State.fetched, h, hj]

theorem atBoundary_ungranted (s : State) : AtBoundary s s.ungranted := ⟨rfl, rfl, rfl, rfl, rfl, rfl, rfl⟩

theorem ungranted_given (b : Burn) (code : Nat) (sum : Sum16) (s : State) :
    BurnResultGiven s (s.ungranted.burnEnd b code sum) b.slot b.block code sum ∧ (s.ungranted.burnEnd b code sum).img.burn = none :=
  burnEnd_given rfl rfl rfl (causesKept_of_eq rfl) b code sum

/-- The job of a source page fetched joins the burn list (R66, R67). -/
theorem fetched_offers (h : b.aborting = false) {words : List Word} {j : Job} (hj : b.fetchedJob words = some j) (s : State) :
    OffersJob s (s.ungranted.fetched b false words) b j ∧ NothingReported s (s.ungranted.fetched b false words) ∧
    BurnFrame s.ungranted (s.ungranted.fetched b false words) := by
  rw [fetched_job h hj]
  exact ⟨offerBurnJob_offers (atBoundary_ungranted s) b j, ⟨rfl, rfl⟩, burnFrame_of_eq rfl (causesKept_of_eq rfl)⟩

/-- Settles O44. -/
theorem burnReadsRunToTheirEnd : Obligations.BurnReadsRunToTheirEnd := by
  unfold Obligations.BurnReadsRunToTheirEnd
  intro s b off hb hw he hg rs u
  refine ⟨fun k ws ha hbad => ?_, fun k ws ha hbad => ?_, fun hclean => ?_⟩
  · obtain ⟨hi, hstg, hstamp, hk, hf⟩ := burnReadDone_bad he hbad
    obtain ⟨hgiven, hnone⟩ := burnEnd_given hi hstg hstamp hk b 7 0#16
    exact ⟨_, shadowReadComplete_bad hb hw hg ha hbad, hnone, hgiven, burnEnd_waiting (by simp) hf b 7 0#16⟩
  · obtain ⟨hi, hstg, hstamp, hk, hf⟩ := burnReadDone_bad he hbad
    refine ⟨_, sourceFetchComplete_ends hb hw hg ha (.inl (anyBad_true rs hbad)), ?_⟩
    rw [anyBad_true _ hbad]
    by_cases hs : b.aborting = true
    · rw [fetched_stopped hs]
      exact ⟨hf, fun h => by simp [hs] at h, fun _ => ⟨burnRequeue_requeued b hi, hstg, hk⟩⟩
    · rw [Bool.not_eq_true] at hs
      rw [fetched_fault hs]
      obtain ⟨hgiven, hnone⟩ := burnEnd_given hi hstg hstamp hk b 7 0#16
      exact ⟨burnEnd_waiting (by simp) hf b 7 0#16, fun _ => ⟨hnone, hgiven⟩, fun h => by simp [hs] at h⟩
  · have hgood : anyBad rs = false := anyBad_false rs (fun x hx => by
      obtain ⟨w, hx⟩ := hclean x hx
      rw [hx]
      rfl)
    have hdone : s.burnReadDone off = u := burnReadDone_clean he hclean
    refine ⟨fun k ws ha hk => ?_, fun k ws ha hk => ?_, fun ws ha hheld => ?_, fun ws ha hheld => ?_, fun ws ha => ?_⟩
    · refine ⟨_, (grantEnd_burn hb hw hg).trans (congrArg Host.Outcome.next (burnReadNext_reading ha hk hgood)), ?_⟩
      rw [hdone]
      exact burnReadsOn_spec b _ (k + 1) u
    · refine ⟨_, (grantEnd_burn hb hw hg).trans (congrArg Host.Outcome.next (burnReadNext_fetching ha hk hgood)), ?_⟩
      rw [hdone]
      exact burnReadsOn_spec b _ (4 * b.fetchPage + k + 1) u
    · refine ⟨_, shadowReadComplete_last hb hw hg ha hgood, ?_⟩
      rw [hdone, burnRead_step2 hheld]
      refine ⟨burnStep2_burnFrame b _ u, fun hp => ?_, fun p hp => ⟨fun hl => ?_, fun hl => ?_⟩⟩
      · rw [burnStep2_invalid hp]
        exact ungranted_given b 3 0#16 s
      · rw [burnStep2_protected (v := u) hp hl]
        exact ungranted_given b 2 0#16 s
      · rw [burnStep2_valid (v := u) hp hl]
        exact burnNext_job (atBoundary_ungranted s) (fun _ => rfl)
    · refine ⟨_, shadowReadComplete_last hb hw hg ha hgood, ?_⟩
      rw [hdone, burnRead_step5 hheld]
      exact ⟨burnNext_burnFrame _ u, burnNext_pages (atBoundary_ungranted s) b _⟩
    · refine ⟨_, sourceFetchComplete_ends hb hw hg ha (.inr rfl), ?_⟩
      rw [hdone, hgood]
      refine ⟨fun hs => ?_, fun page more hs hheld => ?_, fun page sum bad hs hheld => ?_⟩
      · rw [fetched_stopped hs]
        exact ⟨burnRequeue_requeued b rfl, rfl, rfl⟩
      · exact fetched_offers hs (fetchedJob_program hheld _) s
      · exact fetched_offers hs (fetchedJob_verify hheld _) s

end BurnReads
end Sys2Proof.Machine

/-! PROOFS. Image accesses judged by slot and lock (R81 to R84). -/

namespace Sys2Proof.Machine
open Sys2Proof Sys2Proof.Machine Sys2Proof.Machine.Claims

section ImageAccess

variable {s v : State} {p : Port} {c : Carry} {r : Request} {rest : List Request} {b w : Nat} {i : SlotId}

/-! ## Finding a slot (R80, R83) -/

theorem Eight.find_some {α : Type} {q : α → Bool} {f : Eight α} {i : Fin 8} (h : q (f.get i) = true) (hl : ∀ j, j < i → q (f.get j) = false) :
    f.find q = some i := by
  have h0 := hl 0
  have h1 := hl 1
  have h2 := hl 2
  have h3 := hl 3
  have h4 := hl 4
  have h5 := hl 5
  have h6 := hl 6
  clear hl
  match i with
  | 0 | 1 | 2 | 3 | 4 | 5 | 6 | 7 => simp_all [Eight.find, Eight.get]

theorem Eight.find_none {α : Type} {q : α → Bool} {f : Eight α} (h : ∀ i, q (f.get i) = false) : f.find q = none := by
  have h0 := h 0
  have h1 := h 1
  have h2 := h 2
  have h3 := h 3
  have h4 := h 4
  have h5 := h 5
  have h6 := h 6
  have h7 := h 7
  simp_all [Eight.find, Eight.get]

theorem firstEmpty_some {m : Image} (h : m.slots.get i = .empty) (hl : ∀ j, j < i → m.slots.get j ≠ .empty) : m.firstEmpty = some i :=
  Eight.find_some (by simp [h]) (fun j hj => by simpa using hl j hj)

theorem firstEmpty_none {m : Image} (h : ∀ i, m.slots.get i ≠ .empty) : m.firstEmpty = none :=
  Eight.find_none (fun i => by simpa using h i)

/-! ## An access judged (R81, R82, R83) -/

/-- The port's current request goes on to the DRAM. -/
def State.goesTo (p : Port) (c : Carry) (q : DramReq) (s : State) : State := { s with
  ports := s.ports.set p { s.ports.get p with carry := c }
  dram := { s.dram with waiting := s.dram.waiting.set (Source.ofPort p) (some q) } }

theorem imageReadAt_slot (h : v.img.slotOf b = some i) (len : Nat) :
    v.imageReadAt p b w len = v.goesTo p .plain (.read (v.prof.shadowBase / 4 + i.val * 1024 + w) len) := by
  simp only [State.imageReadAt, h]
  rfl

theorem imageReadAt_flash (h : v.img.slotOf b = none) (hx : ∀ x, v.flash.current = some x → x.job.isErase = false) (len : Nat) :
    v.imageReadAt p b w len = { v with
      ports := v.ports.set p { v.ports.get p with carry := .flash }
      flash := { v.flash with portReads := v.flash.portReads ++ [.portRead p (b * 1024 + w) len] } } := by
  have hask := askSuspend_kept (f := v.flash.readOffered p (b * 1024 + w) len) (fun x hc => .inl (hx x hc))
  rw [Flash.readOffered] at hask
  simp only [State.imageReadAt, h, State.offerPortRead, State.setCarry_frame, hask]
  rfl

theorem front_carried (h : Carried v p c r rest) : v.front p = r := front_cons v p r rest h.2.2.1

theorem answer_carried (h : Carried v p c r rest) (a : Response) : v.answer p a = { v with ports := answered v p rest a } :=
  State.answer_served p a v r rest h.1 h.2.2.1 h.2.2.2

theorem imageWriteAt_open (h : Carried v p c r rest) (hi : v.img.slotOf b = some i) {x : Nat} (ho : v.img.slots.get i = .opened b x) :
    v.imageWriteAt p b w = v.goesTo p (.store i) (writeReq (v.prof.shadowBase / 4 + i.val * 1024 + w) r) := by
  simp only [State.imageWriteAt, hi, ho, State.startStore, State.storeReq, front_carried h]
  rfl

theorem imageWriteAt_busy (h : Carried v p c r rest) (hi : v.img.slotOf b = some i)
    (ho : v.img.slots.get i = .queued b ∨ v.img.slots.get i = .burning b) :
    v.imageWriteAt p b w = { v with ports := answered v p rest (.refused .busy) } := by
  rw [← answer_carried h]
  rcases ho with ho | ho <;> simp only [State.imageWriteAt, hi, ho]

theorem imageWriteAt_protect (h : Carried v p c r rest) (hi : v.img.slotOf b = none) (hl : refusesBlock v.lock b) :
    v.imageWriteAt p b w = { v with ports := answered v p rest (.refused .protect) } := by
  rw [← answer_carried h]
  simp only [State.imageWriteAt, hi, (imageForbidden_iff _ _).mpr hl, if_true]

theorem imageWriteAt_full (h : Carried v p c r rest) (hi : v.img.slotOf b = none) (hl : ¬ refusesBlock v.lock b)
    (he : ∀ i, v.img.slots.get i ≠ .empty) :
    v.imageWriteAt p b w = { v with ports := answered v p rest (.refused .full) } := by
  rw [← answer_carried h]
  simp [State.imageWriteAt, hi, imageForbidden_false hl, firstEmpty_none he]

theorem imageWriteAt_fills (hi : v.img.slotOf b = none) (hl : ¬ refusesBlock v.lock b) (he : v.img.slots.get i = .empty)
    (hj : ∀ j, j < i → v.img.slots.get j ≠ .empty) : v.imageWriteAt p b w =
      ({ v with img := { v.img with slots := v.img.slots.set i (.opened b 0) } } : State).goesTo p (.fill i 0)
        (.write (v.prof.shadowBase / 4 + i.val * 1024) (List.replicate 16 0xFFFFFFFF#32)) := by
  simp only [State.imageWriteAt, hi, imageForbidden_false hl, firstEmpty_some he hj]
  rfl

/-! ## An access taken, and one taken up again after a wait (log 43) -/

theorem imageTaking_current (h : Current s p r rest) (hg : s.gate p = .serve) : s.imageTaking p = lookup s.prof.windows r := by
  rw [← taking_lookup h hg]
  exact if_neg (by simp [h.2.1])

theorem imageTaking_waited (h : Carried s p .imageWait r rest) (hd : s.pow.state ≠ .doze) (hh : s.pow.state ≠ .pfHalt) :
    s.imageTaking p = lookup s.prof.windows r := by
  obtain ⟨hs, hc, hq, -⟩ := h
  have hrun := (State.clockRuns_iff s).mpr ⟨hs, hd, hh⟩
  have hr : s.currentRequest p = some r := by simp [State.currentRequest, hq]
  simp [State.imageTaking, hs, hc, hrun, hr]

theorem takeImage_current (h : Current s p r rest) : s.takeImage p = { s with pow := { s.pow with relapse := relapseAfter s p } } := by
  rw [State.takeImage, if_pos h.2.1, State.take_eq]

theorem takeImage_waited (h : Carried s p .imageWait r rest) : s.takeImage p = { s with img := { s.img with waiting := s.img.waiting.erase p } } :=
  if_neg (by simp [h.2.1])

theorem waitImage_current (h : Current s p r rest) : s.waitImage p = { s with
    ports := s.ports.set p { s.ports.get p with carry := .imageWait }
    img := { s.img with waiting := s.img.waiting ++ [p] }
    pow := { s.pow with relapse := relapseAfter s p } } := by
  rw [State.waitImage, if_pos h.2.1, State.take_eq]
  rfl

theorem waitImage_waited (h : Carried s p .imageWait r rest) : s.waitImage p = s := if_neg (by simp [h.2.1])

theorem imageRead_ahead (ht : s.imageTaking p = .imageRead b w) (ha : s.fillAhead p b = true) : exec (.imageRead p) s = .next (s.waitImage p) := by
  simp only [exec, execImageRead, ht, ha, if_true]

theorem imageRead_judged (ht : s.imageTaking p = .imageRead b w) (ha : s.fillAhead p b = false) :
    exec (.imageRead p) s = .next ((s.takeImage p).imageReadAt p b w (s.front p).len) := by
  simp [exec, execImageRead, ht, ha]

theorem imageWrite_ahead (ht : s.imageTaking p = .imageWrite b w) (ha : s.writeAhead p b = true) : exec (.imageWrite p) s = .next (s.waitImage p) := by
  simp only [exec, execImageWrite, ht, ha, if_true]

theorem imageWrite_judged (ht : s.imageTaking p = .imageWrite b w) (ha : s.writeAhead p b = false) :
    exec (.imageWrite p) s = .next ((s.takeImage p).imageWriteAt p b w) := by
  simp [exec, execImageWrite, ht, ha]

/-! ## What stands ahead of an access (R82, R83; log 11) -/

theorem fillAhead_iff : s.fillAhead p b = true ↔
    ∃ i k, (s.ports.get (otherPort p)).carry = .fill i k ∧ (s.img.slots.get i).block = some b := by
  unfold State.fillAhead
  cases (s.ports.get (otherPort p)).carry <;> simp

theorem writeAhead_writing (h : ∃ i, (s.ports.get (otherPort p)).carry = .store i ∨ ∃ k, (s.ports.get (otherPort p)).carry = .fill i k) :
    s.writeAhead p b = true ↔ (∃ i k, (s.ports.get (otherPort p)).carry = .fill i k ∧ (s.img.slots.get i).block = some b) ∨
      ∃ i, (s.ports.get (otherPort p)).carry = .store i ∧ (s.img.slots.get i).block = some b := by
  obtain ⟨i, h | ⟨k, h⟩⟩ := h <;> simp [State.writeAhead, h]

theorem writeAhead_free (h : ¬ ∃ i, (s.ports.get (otherPort p)).carry = .store i ∨ ∃ k, (s.ports.get (otherPort p)).carry = .fill i k) :
    s.writeAhead p b = s.waitsFirst p b := by
  unfold State.writeAhead
  split
  · next i hi => exact absurd ⟨i, .inl hi⟩ h
  · next i k hi => exact absurd ⟨i, .inr ⟨k, hi⟩⟩ h
  · rfl

theorem imageBlock_iff (hq : (s.ports.get p).queue = r :: rest) :
    s.imageBlock p = some b ↔ ∃ w, lookup s.prof.windows r = .imageWrite b w ∨ lookup s.prof.windows r = .imageRead b w := by
  rw [State.imageBlock, front_cons s p r rest hq]
  cases lookup s.prof.windows r <;> simp

/-- Settles O40. -/
theorem imageAccessJudgedBySlotAndLock : Obligations.ImageAccessJudgedBySlotAndLock := by
  unfold Obligations.ImageAccessJudgedBySlotAndLock
  refine ⟨?_, ?_, ?_, ?_⟩
  · intro s p r rest b word h hg hl
    have ht := (imageTaking_current h hg).trans hl
    refine ⟨fun ha => by rw [imageRead_ahead ht ha, waitImage_current h], fun ha => ?_⟩
    rw [imageRead_judged ht ha, takeImage_current h, front_current h]
    exact ⟨fun i hi => congrArg Host.Outcome.next (imageReadAt_slot (v := { s with pow := { s.pow with relapse := relapseAfter s p } }) hi _),
      fun hi hx => congrArg Host.Outcome.next
      (imageReadAt_flash (v := { s with pow := { s.pow with relapse := relapseAfter s p } }) hi hx _)⟩
  · intro s p r rest b word h hg hl
    have ht := (imageTaking_current h hg).trans hl
    refine ⟨fun ha => by rw [imageWrite_ahead ht ha, waitImage_current h], fun ha => ?_⟩
    rw [imageWrite_judged ht ha, takeImage_current h]
    have hv : Carried { s with pow := { s.pow with relapse := relapseAfter s p } } p .untaken r rest := h
    exact ⟨fun i t hi ho => congrArg Host.Outcome.next (imageWriteAt_open hv hi ho),
      fun i hi ho => congrArg Host.Outcome.next (imageWriteAt_busy hv hi ho),
      fun hi hr => congrArg Host.Outcome.next (imageWriteAt_protect hv hi hr),
      fun hi hr he => congrArg Host.Outcome.next (imageWriteAt_full hv hi hr he),
      fun i hi hr he hj => congrArg Host.Outcome.next (imageWriteAt_fills hi hr he hj)⟩
  · intro s p r rest b word h hd hh ended goesOn
    have hv : Carried { s with img := { s.img with waiting := s.img.waiting.erase p } } p .imageWait r rest := h
    refine ⟨fun hl => ?_, fun hl => ?_⟩
    · have ht := (imageTaking_waited h hd hh).trans hl
      refine ⟨fun ha => by rw [imageRead_ahead ht ha, waitImage_waited h], fun ha => ?_⟩
      rw [imageRead_judged ht ha, takeImage_waited h, front_carried h]
      exact ⟨fun i hi => congrArg Host.Outcome.next (imageReadAt_slot (v := { s with img := { s.img with waiting := s.img.waiting.erase p } }) hi _),
      fun hi hx => congrArg Host.Outcome.next
        (imageReadAt_flash (v := { s with img := { s.img with waiting := s.img.waiting.erase p } }) hi hx _)⟩
    · have ht := (imageTaking_waited h hd hh).trans hl
      refine ⟨fun ha => by rw [imageWrite_ahead ht ha, waitImage_waited h], fun ha => ?_⟩
      rw [imageWrite_judged ht ha, takeImage_waited h]
      exact ⟨fun i t hi ho => congrArg Host.Outcome.next (imageWriteAt_open hv hi ho),
        fun i hi ho => congrArg Host.Outcome.next (imageWriteAt_busy hv hi ho),
        fun hi hr => congrArg Host.Outcome.next (imageWriteAt_protect hv hi hr),
        fun hi hr he => congrArg Host.Outcome.next (imageWriteAt_full hv hi hr he),
        fun i hi hr he hj => congrArg Host.Outcome.next (imageWriteAt_fills hi hr he hj)⟩
  · intro s p b other fills stores writing
    refine ⟨fillAhead_iff, writeAhead_writing, fun hn hw => ?_, fun r rest hn hw hq => ?_⟩
    · rw [writeAhead_free hn]
      simp [State.waitsFirst, hw]
    · rw [writeAhead_free hn]
      simp [State.waitsFirst, hw, imageBlock_iff hq]

/-! ## Fill and store (R82 to R84, R125) -/

theorem imageTarget_eq (h : Carried s p c r rest) (hl : lookup s.prof.windows r = .imageWrite b w) : s.imageTarget p = (b, w) := by
  simp [State.imageTarget, front_carried h, hl]

theorem portInGrant_eq {q : DramReq} (hg : s.dram.grant = some (.source (Source.ofPort p) q)) :
    s.portInGrant = some (p, (s.ports.get p).carry, q) := by
  cases p <;> simp only [State.portInGrant, hg, Source.ofPort] <;> rfl

/-- The DRAM words that a whole-word write stores. -/
theorem writeDram_inside (hm : s.memoryWf = true) {t : State} {off : Nat} {ws : List Word} (h : t.dram.cells = writeDram s.dram.cells off ws) :
    (∀ a, off ≤ a → a < off + ws.length → readCell dramDefault t.dram.cells a = encodeWord (wordAt ws (a - off))) ∧
    (∀ a, a < off ∨ off + ws.length ≤ a → readCell dramDefault t.dram.cells a = readCell dramDefault s.dram.cells a) := by
  rw [h]
  exact ⟨fun a => readCell_writeDram_inside _ off ws a ((State.memoryWf_iff s).mp hm).1, fun a => cellsAfter_outside _ (.write off ws) a⟩

/-- The state once a whole-word write has been stored. -/
def State.wrote (off : Nat) (ws : List Word) (s : State) : State :=
  { s with dram := { s.dram with cells := writeDram s.dram.cells off ws, grant := none } }

theorem Carried.wrote (h : Carried s p c r rest) (off : Nat) (ws : List Word) : Carried (s.wrote off ws) p c r rest := h

theorem carried_write (he : s.dram.entryReq = none) (off : Nat) (ws : List Word) : (s.carryOut (.write off ws)).endGrant = s.wrote off ws :=
  carried_eq (.write off ws) (.inl he)

theorem Carried.setCarry (h : Carried v p c r rest) (x : Carry) : Carried (v.setCarry p x) p x r rest := by
  obtain ⟨hs, -, hq, hl⟩ := h
  exact ⟨hs, by simp [State.setCarry, State.setPort], by simpa [State.setCarry, State.setPort] using hq, hl⟩

/-- The request that follows fill request `k` of a slot. -/
def State.fillReq (i : SlotId) (k w : Nat) (r : Request) (s : State) : DramReq :=
  if k = 63 then writeReq (s.prof.shadowBase / 4 + i.val * 1024 + w) r
  else .write (s.prof.shadowBase / 4 + i.val * 1024 + 16 * (k + 1)) (List.replicate 16 0xFFFFFFFF#32)

theorem fillNext_eq {k : Nat} {q : DramReq} (hv : (s.carryOut q).endGrant = v) (h : Carried v p (.fill i k) r rest)
    (hl : lookup v.prof.windows r = .imageWrite b w) (hk : k < 64) :
    s.fillNext p i k q = v.goesTo p (.fill i (k + 1)) (v.fillReq i k w r) := by
  have hc := Carried.setCarry h (.fill i (k + 1))
  rw [State.fillNext, hv]
  rw [imageTarget_eq hc hl, State.storeReq, front_carried hc, State.fillReq]
  by_cases h63 : k = 63
  · rw [if_neg (by omega), if_pos h63]
    rfl
  · rw [if_pos (by omega), if_neg h63]
    rfl

/-- A request of the fill ends. -/
theorem grantEnd_fill {k : Nat} {q : DramReq} (h : Carried s p (.fill i k) r rest) (hk : k < 64)
    (hg : s.dram.grant = some (.source (Source.ofPort p) q)) : exec .partRequestGrantEnd s = .next (s.fillNext p i k q) := by
  have hp := portInGrant_eq hg
  rw [h.2.1] at hp
  cases p <;> simp only [exec, execPartRequestGrantEnd, hg, Source.ofPort, hp, if_pos hk]

theorem wordAt_replicate {n j : Nat} (h : j < n) (x : Word) : wordAt (List.replicate n x) j = x := by
  simp [wordAt, h]

/-- A fill request stored, and the next one presented: nothing else has changed. -/
theorem goesTo_wrote (p : Port) (c : Carry) (q : DramReq) (off : Nat) (ws : List Word) (s : State) : (s.wrote off ws).goesTo p c q = { s with
    ports := s.ports.set p { s.ports.get p with carry := c }
    dram := { s.dram with grant := none, cells := writeDram s.dram.cells off ws, waiting := s.dram.waiting.set (Source.ofPort p) (some q) } } := rfl

/-- The port's own write ends, after the fill or into a slot that was open. -/
theorem storeEnd_step {x : Instr} (hx : x = .slotFillComplete ∧ Carried s p (.fill i 64) r rest ∨ x = .portDramGrantEnd ∧ Carried s p (.store i) r rest)
    {q : DramReq} (hg : s.dram.grant = some (.source (Source.ofPort p) q)) :
    exec x s = .next (s.storeEnd p i q) ∧ ∃ c, Carried s p c r rest := by
  rcases hx with ⟨rfl, h⟩ | ⟨rfl, h⟩
  · have hp := portInGrant_eq hg
    rw [h.2.1] at hp
    exact ⟨by simp only [exec, execSlotFillComplete, hp], _, h⟩
  · exact ⟨by rw [execPortDramGrantEnd_port s p q hg, State.portGrantEnd, portGrant_source s p q hg, h.2.1], _, h⟩

theorem storeEnd_usable {q : DramReq} (h : Carried s p c r rest) (hl : lookup s.prof.windows r = .imageWrite b w)
    (hb : anyBad (readsOf s.dram.cells q) = false) (hv : (s.carryOut q).endGrant = v) (hc : Carried v p c r rest) :
    s.storeEnd p i q = { v with ports := answered v p rest (.done []), img := v.img.stored i (hasLastWord w r.len) } := by
  have hi : Carried { v with img := v.img.stored i (hasLastWord w r.len) } p c r rest := hc
  rw [State.storeEnd, hv, hb, imageTarget_eq h hl, front_carried h, if_neg (by simp), answer_carried hi]
  rfl

theorem storeEnd_bad {q : DramReq} (hb : anyBad (readsOf s.dram.cells q) = true) (hv : (s.carryOut q).endGrant = v)
    (hc : Carried v p c r rest) : s.storeEnd p i q = { v.faultRecord (portCode p) (readsOf s.dram.cells q) with
      ports := answered v p rest (.refused .fault) } := by
  have hf : Carried (v.faultRecord (portCode p) (readsOf s.dram.cells q)) p c r rest := by
    obtain ⟨hs, hcarry, hq, hl⟩ := hc
    exact ⟨by simpa using hs, by simpa using hcarry, by simpa using hq, hl⟩
  rw [State.storeEnd, hv, if_pos hb, answer_carried hf]
  simp [answered]

/-- The slot after a write into it (R82, R84). -/
theorem stored_spec {m : Image} {t0 : Nat} (ho : m.slots.get i = .opened b t0) (w len : Nat) :
    (w + len ≠ 1024 → (m.stored i (hasLastWord w len)).slots = m.slots.set i (.opened b 0) ∧ (m.stored i (hasLastWord w len)).queue = m.queue) ∧
    (w + len = 1024 → (m.stored i (hasLastWord w len)).slots = m.slots.set i (.queued b) ∧
      (m.stored i (hasLastWord w len)).queue = m.queue ++ [i]) := by
  refine ⟨fun h => ?_, fun h => ?_⟩
  all_goals simp [Image.stored, ho, hasLastWord, h]

theorem stored_frame (m : Image) (i : SlotId) (last : Bool) :
    m.stored i last = { m with slots := (m.stored i last).slots, queue := (m.stored i last).queue } := by
  unfold Image.stored
  split
  · split <;> rfl
  · rfl

/-- Settles O41. -/
theorem slotFillThenStore : Obligations.SlotFillThenStore := by
  unfold Obligations.SlotFillThenStore
  intro s p r rest i b word t0 hm he hl ho
  refine ⟨fun k off hk h hg => ?_, fun x hx off w en hg => ?_, fun off ws hg x hx => ?_⟩
  · have hstep := grantEnd_fill h hk hg
    rw [fillNext_eq (carried_write he off _) (Carried.wrote h off _) hl hk, goesTo_wrote] at hstep
    obtain ⟨hin, hout⟩ := writeDram_inside (t := s.wrote off (List.replicate 16 0xFFFFFFFF#32)) hm rfl
    refine ⟨_, hstep, rfl, rfl, fun a h1 h2 => (hin a h1 h2).trans ?_, hout⟩
    rw [wordAt_replicate (by omega)]
  · obtain ⟨hstep, c, h⟩ := storeEnd_step hx hg
    have hv := carried_eq (s := s) (.rmw off w en) (.inl he)
    rw [hstep]
    cases hbad : (readCode (readCell dramDefault s.dram.cells off)).bad with
    | true =>
      have hb : anyBad (readsOf s.dram.cells (.rmw off w en)) = true := by simp [readsOf, readDram_one, anyBad, hbad]
      have hc : Carried ((s.carryOut (.rmw off w en)).endGrant) p c r rest := by
        rw [hv]
        simpa [Carried] using h
      rw [storeEnd_bad hb rfl hc, hv, cellsAfter_rmw_bad w en hbad]
      exact ⟨_, rfl, by simp, by simp, by simp, by simp, fun a _ => by simp, fun _ => ⟨by simp [answered], by simp, by simp⟩, fun h => by simp at h⟩
    | false =>
      have hb : anyBad (readsOf s.dram.cells (.rmw off w en)) = false := by simp [readsOf, readDram_one, anyBad, hbad]
      have hc : Carried ((s.carryOut (.rmw off w en)).endGrant) p c r rest := by
        rw [hv]
        simpa [Carried] using h
      rw [storeEnd_usable h hl hb rfl hc, hv, cellsAfter_rmw_usable w en hbad]
      obtain ⟨hin, hout⟩ := writeDram_inside (t := { s with dram := { s.dram with
        cells := writeDram s.dram.cells off [mergeWord (readCode (readCell dramDefault s.dram.cells off)).word w en] } }) hm rfl
      have hslots := stored_spec ho word r.len
      refine ⟨_, rfl, by simp, by simp, by simp, by simp, fun a ha => ?_, fun h => by simp at h, fun _ => ⟨by simp [answered], ?_, ?_⟩⟩
      · simpa using hout a (by simp; omega)
      · simpa [wordAt] using hin off (Nat.le_refl _) (by simp)
      · simpa using hslots
  · obtain ⟨hstep, c, h⟩ := storeEnd_step hx hg
    rw [hstep, storeEnd_usable (v := s.wrote off ws) h hl rfl (carried_write he off ws) (Carried.wrote h off ws)]
    obtain ⟨hin, hout⟩ := writeDram_inside (t := s.wrote off ws) hm rfl
    obtain ⟨hmore, hlast⟩ := stored_spec ho word r.len
    refine ⟨_, rfl, ?_, hmore, hlast, hin, hout⟩
    rw [stored_frame]
    rfl

end ImageAccess
end Sys2Proof.Machine

/-! PROOFS. Refreshes owed, paid and lost (R128, R141 to R145). -/

namespace Sys2Proof.Machine
open Sys2Proof Sys2Proof.Machine Sys2Proof.Machine.Claims

section Refreshes

variable {s : State}

/-! ## A free DRAM -/

theorem Claims.DramFree.clockRuns (h : DramFree s) : s.clockRuns = true := by
  obtain ⟨hs, hd, hh, -⟩ := h
  exact (State.clockRuns_iff s).mpr ⟨hs, hd, hh⟩

theorem entryDue_false (h : s.dram.entryReq = none ∨ s.stg.queue ≠ []) : s.entryDue = false := by
  rcases h with h | h <;> simp [State.entryDue, h]

theorem Claims.DramFree.dramFree (h : DramFree s) : s.dramFree = true := by
  obtain ⟨-, -, -, hm, he, hg, hr⟩ := h
  simp [State.dramFree, hm, entryDue_false he, hg, hr]

theorem Claims.DramFree.arbiterFree (h : DramFree s) (ho : s.dram.owed < s.prof.urgentThreshold) : s.arbiterFree = true := by
  simp [State.arbiterFree, h.clockRuns, h.dramFree, ho]

theorem anyWaiting_iff (d : Dram) : d.anyWaiting = true ↔ ∃ r, d.waiting.get r ≠ none := by
  simp only [Dram.anyWaiting, List.any_eq_true, Option.isSome_iff_ne_none]
  exact ⟨fun ⟨r, _, h⟩ => ⟨r, h⟩, fun ⟨r, h⟩ => ⟨r, by cases r <;> decide, h⟩⟩

theorem anyWaiting_false {d : Dram} (h : ∀ r, d.waiting.get r = none) : d.anyWaiting = false := by
  rw [← Bool.not_eq_true, anyWaiting_iff]
  simp [h]

/-! ## The refresh timer (R141, R142) -/

theorem Dram.timerOn_kept {d : Dram} (h : d.timerOn = true) (n : Nat) : { d with period := n, timerOn := true } = { d with period := n } := by
  cases d
  simp_all

theorem reload_on (h : s.dram.timerOn = true) : s.reload =
    { s with dram := { s.dram with period := if s.pow.hot = true then s.prof.refreshPeriod / 2 else s.prof.refreshPeriod } } := by
  rw [State.reload, reloadPeriod]
  exact congrArg (fun d => ({ s with dram := d } : State)) (Dram.timerOn_kept h _)

theorem isRefreshLost_iff (r : Record) : r.isRefreshLost = true ↔ r.kind = 0xF8#8 := by simp [Record.isRefreshLost]

theorem mergeLoss_first {before after : List Record} {r : Record} (hr : r.kind = 0xF8#8) (hb : ∀ x ∈ before, x.kind ≠ 0xF8#8) :
    mergeLoss (before ++ r :: after) = before ++ r.addLoss :: after := by
  induction before with
  | nil => simp [mergeLoss, (isRefreshLost_iff r).mpr hr]
  | cons x xs ih =>
    have hx : ¬ x.isRefreshLost = true := fun h => hb x (by simp) ((isRefreshLost_iff x).mp h)
    rw [List.cons_append, mergeLoss, if_neg hx, ih (fun y hy => hb y (by simp [hy]))]
    rfl

theorem offerRefreshLost_merges {before after : List Record} {r : Record} (ho : s.stg.outbox = before ++ r :: after) (hr : r.kind = 0xF8#8)
    (hb : ∀ x ∈ before, x.kind ≠ 0xF8#8) :
    s.offerRefreshLost = { s with stg := { s.stg with outbox := before ++ r.addLoss :: after } } := by
  have hany : s.stg.outbox.any Record.isRefreshLost = true := by
    rw [ho, List.any_eq_true]
    exact ⟨r, by simp, (isRefreshLost_iff r).mpr hr⟩
  rw [State.offerRefreshLost, if_pos hany, ho, mergeLoss_first hr hb]

theorem offerRefreshLost_offers (h : ∀ r ∈ s.stg.outbox, r.kind ≠ 0xF8#8) : s.offerRefreshLost = s.offerNow 0xF8#8 false [numWord 1] := by
  refine if_neg ?_
  rw [List.any_eq_true]
  rintro ⟨r, hm, hr⟩
  exact h r hm ((isRefreshLost_iff r).mp hr)

/-- All that a report of a lost refresh can change, once FAULT is raised. -/
theorem offerRefreshLost_frame_eq (hd : s.mir.dirty = true) : s.offerRefreshLost = { s with
    stg := { s.stg with outbox := s.offerRefreshLost.stg.outbox, lost := s.offerRefreshLost.stg.lost }
    mir := { s.mir with dirty := true, attention := s.offerRefreshLost.mir.attention } } := by
  unfold State.offerRefreshLost
  split
  · rw [← hd]
  · rw [offerNow_eq]

theorem offerRefreshLost_waiting {c : Cause} (h : s.mir.attention.get c.ix = .waiting) : s.offerRefreshLost.mir.attention.get c.ix = .waiting := by
  unfold State.offerRefreshLost
  split
  · exact h
  · exact offer_waiting _ h

/-- A refresh counted lost, with FAULT raised, before its report. -/
def State.lossCounted (s : State) : State := ({ s with dram.lostRefresh := saturate 65535 s.dram.lostRefresh 1 } : State).raise .fault

/-- What an expiry with eight refreshes owed does (R142, R33). -/
theorem refreshLost (h : s.dram.timerOn = true) (ho : 8 ≤ s.dram.owed) : ∃ t, exec .refreshTimerExpiry s = .next t ∧
      t = { s with
        stg := { s.stg with outbox := t.stg.outbox, lost := t.stg.lost }
        dram := { s.dram with
          lostRefresh := min 65535 (s.dram.lostRefresh + 1)
          period := if s.pow.hot = true then s.prof.refreshPeriod / 2 else s.prof.refreshPeriod }
        mir := { s.mir with dirty := true, attention := t.mir.attention } } ∧
      t.mir.attention.get Cause.fault.ix = .waiting ∧
      ((∀ r ∈ s.stg.outbox, r.kind ≠ 0xF8#8) → Offered s t (partRecord 0xF8#8 false s.stamp [1#32]) [.fault]) ∧
      (∀ before r after, s.stg.outbox = before ++ r :: after → r.kind = 0xF8#8 → (∀ x ∈ before, x.kind ≠ 0xF8#8) →
        t.stg.outbox = before ++ { r with payload := [BitVec.ofNat 32 (min 65535 ((wordAt r.payload 0).toNat + 1))] } :: after ∧
        t.stg.lost = s.stg.lost ∧ CausesKept s t [.fault]) := by
  have hraise : CausesKept s s.lossCounted [.fault] := raise_causesKept .fault { s with dram.lostRefresh := saturate 65535 s.dram.lostRefresh 1 }
  have hframe := offerRefreshLost_frame_eq (s := s.lossCounted) rfl
  have hon : s.lossCounted.offerRefreshLost.dram.timerOn = true := by
    rw [hframe]
    exact h
  refine ⟨s.lossCounted.offerRefreshLost.reload, ?_, ?_, ?_, fun hn => ?_, fun before r after hb hr hx => ?_⟩
  · simp only [exec, execRefreshTimerExpiry]
    rw [if_pos h, if_neg (by omega)]
    rfl
  · rw [reload_on hon, hframe]
    rfl
  · exact offerRefreshLost_waiting (raise_waiting .fault _)
  · have hoff := offerNow_offered 0xF8#8 false [numWord 1] s.lossCounted
    rw [← offerRefreshLost_offers (s := s.lossCounted) hn] at hoff
    have hs : Offered s s.lossCounted.offerRefreshLost _ [.fault] := hoff.before rfl rfl hraise (by simp)
    exact hs.after (bs := []) rfl rfl (causesKept_of_eq rfl) (by simp) (by simp)
  · rw [offerRefreshLost_merges (s := s.lossCounted) hb hr hx]
    exact ⟨rfl, rfl, hraise⟩

/-! ## The ends of refreshes (R143 to R145; log 39) -/

/-- A trickle refresh that has ended, before what follows it. -/
def State.tricklePaid (s : State) : State := { s with dram := { s.dram with
  owed := s.dram.owed - 1, refresh := .none, patrol := min 2 (s.dram.patrol + if s.pow.hot = true then 2 else 1) } }

theorem refreshEnd_trickle (h : s.dram.refresh = .trickle) :
    exec .refreshEnd s = .next (if s.urgentDue = true then s.tricklePaid.beginUrgent else s.tricklePaid.beginEntry) := by
  simp only [exec, execRefreshEnd, h]
  rfl

/-- Settles O49. -/
theorem refreshesAreOwedAndPaid : Obligations.RefreshesAreOwedAndPaid := by
  unfold Obligations.RefreshesAreOwedAndPaid
  refine ⟨fun s level => rfl, ?_, fun s hf => ⟨fun ho => ?_, fun h0 ho hw => ?_, fun ho => ?_⟩, fun s he hg => ⟨fun hr => ?_, ?_⟩⟩
  · intro s ht period
    refine ⟨fun ho => ?_, fun ho => refreshLost ht ho⟩
    have hl := reload_on (s := { s with dram := { s.dram with owed := s.dram.owed + 1 } }) ht
    simp only [exec, execRefreshTimerExpiry]
    rw [if_pos ht, if_pos ho]
    exact congrArg Host.Outcome.next hl
  · have hdue : (s.clockRuns && s.dramFree && s.urgentDue) = true := by simp [hf.clockRuns, hf.dramFree, State.urgentDue, ho]
    refine ⟨s.beginUrgent, ?_, closedRows_allClosed s.prof, rfl⟩
    simp only [exec, execUrgentRefresh]
    rw [if_pos hdue]
  · have hdue : (s.arbiterFree && decide (0 < s.dram.owed) && !s.dram.anyWaiting) = true := by
      simp [hf.arbiterFree ho, h0, anyWaiting_false hw]
    refine ⟨{ s.closeAll with dram.refresh := .trickle }, ?_, closedRows_allClosed s.prof, rfl⟩
    simp only [exec, execTrickleRefresh]
    rw [if_pos hdue]
  · have hdue : ¬ (s.arbiterFree && decide (0 < s.dram.owed) && !s.dram.anyWaiting) = true := by
      rcases ho with ho | ho | ho
      · simp [ho]
      · simp [State.arbiterFree, Nat.not_lt.mpr ho]
      · simp [(anyWaiting_iff s.dram).mpr ho]
    simp only [exec, execTrickleRefresh]
    rw [if_neg hdue]
  · simp only [exec, execRefreshEnd, hr]
    exact congrArg Host.Outcome.next (beginEntry_idle (.inl he))
  · intro hr u
    rw [refreshEnd_trickle hr]
    refine ⟨fun ho => ?_, fun ho => ⟨s.tricklePaid.beginUrgent, ?_, closedRows_allClosed s.prof, rfl⟩⟩
    · rw [if_neg (by simpa [State.urgentDue] using ho)]
      exact congrArg Host.Outcome.next (beginEntry_idle (s := s.tricklePaid) (.inl he))
    · rw [if_pos (by simpa [State.urgentDue] using ho)]

end Refreshes
end Sys2Proof.Machine

/-! PROOFS. The arbiter and SCRUB (R124, R127, R129 to R134, R144 to R146). -/

namespace Sys2Proof.Machine
open Sys2Proof Sys2Proof.Machine Sys2Proof.Machine.Claims

section Arbiter

variable {s t : State} {us : List Upset} {r : Source} {q : DramReq}

/-! ## The choice among the six (R130, R131) -/

theorem idxOf_cons_of_ne {α : Type} [DecidableEq α] {l : List α} {x a : α} (h : x ≠ a) : (x :: l).idxOf a = l.idxOf a + 1 := by
  simp only [List.idxOf_cons, beq_eq_false_iff_ne.mpr h, cond_false]

/-- The first of a list to pass a test: nothing before it passes. -/
theorem find?_of_idxOf {α : Type} [DecidableEq α] {l : List α} {p : α → Bool} {a : α} (hm : a ∈ l) (hp : p a = true)
    (hb : ∀ b, l.idxOf b < l.idxOf a → p b = false) : l.find? p = some a := by
  induction l with
  | nil => simp at hm
  | cons x xs ih =>
    by_cases hx : x = a
    · subst hx
      simp [hp]
    · have hxa : xs.idxOf a + 1 = (x :: xs).idxOf a := by rw [idxOf_cons_of_ne hx]
      have hfirst : p x = false := hb x (by rw [← hxa, List.idxOf_cons_self]; omega)
      rw [List.find?_cons_of_neg (by simp [hfirst])]
      refine ih (List.mem_of_ne_of_mem (Ne.symm hx) hm) (fun b hlt => ?_)
      by_cases hbx : x = b
      · rw [← hbx]
        exact hfirst
      · exact hb b (by rw [← hxa, idxOf_cons_of_ne hbx]; omega)

theorem Source.mem_order (r : Source) : r ∈ Source.order := by cases r <;> decide

theorem find_order {p : Source → Bool} (hp : p r = true) (hb : ∀ j, above j r → p j = false) : Source.order.find? p = some r :=
  find?_of_idxOf (Source.mem_order r) hp hb

theorem waits_iff (d : Dram) (r : Source) : d.waits r = true ↔ d.waiting.get r ≠ none := by simp [Dram.waits, Option.isSome_iff_ne_none]

theorem waits_false {d : Dram} (h : d.waiting.get r = none) : d.waits r = false := by simp [Dram.waits, h]

theorem due_iff (s : State) (r : Source) : due s.prof s.dram r = true ↔ isDue s r := by simp [due, isDue, wspThreshold]

theorem due_false (h : ¬ isDue s r) : due s.prof s.dram r = false := by rwa [← due_iff, Bool.not_eq_true] at h

theorem chooseSource_favours (hw : s.dram.waiting.get r ≠ none) (hf : favours s r) : chooseSource s.prof s.dram = some r := by
  obtain ⟨hsp, hwsp⟩ := hf
  have hr : s.dram.waits r = true := (waits_iff _ _).mpr hw
  have highest : (∀ j, above j r → s.dram.waiting.get j = none) → Source.order.find? (fun r => s.dram.waits r) = some r := fun h =>
    find_order hr (fun j hj => waits_false (h j hj))
  cases hp : s.prof.policy with
  | sp => simpa only [chooseSource, hp] using highest (hsp hp)
  | wsp =>
    rcases hwsp hp with ⟨hd, hb⟩ | ⟨hn, hb⟩
    · have hfind : Source.order.find? (fun r => s.dram.waits r && due s.prof s.dram r) = some r := by
        refine find_order (by simp [hr, (due_iff s r).mpr hd]) (fun j hj => ?_)
        by_cases hjw : s.dram.waiting.get j = none
        · simp [waits_false hjw]
        · simp [due_false (hb j hj hjw)]
      simp only [chooseSource, hp, hfind]
    · have hnone : Source.order.find? (fun r => s.dram.waits r && due s.prof s.dram r) = none := by
        refine List.find?_eq_none.mpr (fun j _ => ?_)
        by_cases hjw : s.dram.waiting.get j = none
        · simp [waits_false hjw]
        · simp [due_false (hn j hjw)]
      simpa only [chooseSource, hp, hnone] using highest hb

theorem chooseSource_none (h : ∀ r, s.dram.waiting.get r = none) : chooseSource s.prof s.dram = none := by
  have hnone : ∀ f : Source → Bool, Source.order.find? (fun r => s.dram.waits r && f r) = none := fun f =>
    List.find?_eq_none.mpr (fun j _ => by simp [waits_false (h j)])
  have hhigh : Source.order.find? (fun r => s.dram.waits r) = none := List.find?_eq_none.mpr (fun j _ => by simp [waits_false (h j)])
  cases hp : s.prof.policy with
  | sp => simpa only [chooseSource, hp] using hhigh
  | wsp => simp only [chooseSource, hp, hnone, hhigh]

theorem nextGrant_favours (hw : s.dram.waiting.get r = some q) (hf : favours s r) : nextGrant s.prof s.dram = some (.source r q) := by
  rw [nextGrant, chooseSource_favours (by simp [hw]) hf]
  simp [hw]

theorem nextGrant_scrub (h : ∀ r, s.dram.waiting.get r = none) :
    nextGrant s.prof s.dram = if s.dram.owed = 0 then scrubRequest s.dram else none := by
  rw [nextGrant, chooseSource_none h]

theorem passoversAfter_wsp (h : s.prof.policy = .wsp) (r j : Source) : (passoversAfter s.prof s.dram r).get j =
    if j = r then 0 else if s.dram.waits j = true then min (16 - s.prof.weights.get j) (s.dram.passover.get j + 1) else s.dram.passover.get j := by
  simp [passoversAfter, h, saturate, wspThreshold]

/-! ## The grant (R123, R129) -/

theorem geometryWords_iff (p : Profile) (off len : Nat) : off + len ≤ geometryWords p ↔ inGeometry p off len := Iff.rfl

/-- The state in which the arbiter's grant begins: bits may have flipped in the device (log 10). -/
def State.flippedBy (us : List Upset) (s : State) : State := { s with dram := { s.dram with cells := applyUpsets s.dram.cells (upsetsWithin s.prof us) } }

theorem arbiterChoice_grants {g : Grant} (hu : us.all Upset.wf = true) (hf : s.arbiterFree = true) (hg : nextGrant s.prof s.dram = some g)
    (hin : inGeometry s.prof g.span.1 g.span.2) : exec (.arbiterChoice us) s = .next ((s.flippedBy us).beginGrant g) := by
  have hwithin := (geometryWords_iff _ _ _).mpr hin
  simp only [exec, execArbiterChoice, hu, hf, hg, if_true, hwithin]
  rfl

theorem arbiterChoice_outside {g : Grant} (hu : us.all Upset.wf = true) (hf : s.arbiterFree = true) (hg : nextGrant s.prof s.dram = some g)
    (hin : ¬ inGeometry s.prof g.span.1 g.span.2) : exec (.arbiterChoice us) s = .fault .outsideGeometry := by
  have hwithin := (not_congr (geometryWords_iff s.prof g.span.1 g.span.2)).mpr hin
  simp only [exec, execArbiterChoice, hu, hf, hg, if_true, hwithin, if_false]

theorem arbiterChoice_idle (hu : us.all Upset.wf = true) (hg : nextGrant s.prof s.dram = none) : exec (.arbiterChoice us) s = .next s := by
  simp only [exec, execArbiterChoice, hu, hg, if_true, ite_self]

/-- The arbiter leaves the state, or begins a grant. -/
theorem arbiterChoice_cases (h : exec (.arbiterChoice us) s = .next t) : t = s ∨ ∃ g, t = (s.flippedBy us).beginGrant g := by
  simp only [exec, execArbiterChoice] at h
  split at h
  · split at h
    · split at h
      · split at h
        · exact .inr ⟨_, (Host.Outcome.next.inj h).symm⟩
        · cases h
      · exact .inl (Host.Outcome.next.inj h).symm
    · exact .inl (Host.Outcome.next.inj h).symm
  · cases h

theorem readCell_applyUpsets {a : Nat} (us : List Upset) (cells : List (Nat × Code)) (h : ∀ u ∈ us, u.offset ≠ a) :
    readCell dramDefault (applyUpsets cells us) a = readCell dramDefault cells a := by
  induction us generalizing cells with
  | nil => rfl
  | cons u us ih =>
    rw [applyUpsets, ih _ (fun x hx => h x (by simp [hx])), readCell_writeCell_ne _ _ _ _ _ (Ne.symm (h u (by simp)))]

theorem flippedBy_cellsBut (us : List Upset) (s : State) (h : t.dram.cells = (s.flippedBy us).dram.cells) : CellsBut s t us := by
  intro a ha
  rw [h]
  exact readCell_applyUpsets _ _ (fun u hu => ha u (List.mem_filter.mp hu).1)

theorem beginGrant_source (r : Source) (q : DramReq) (s : State) : s.beginGrant (.source r q) = { s with dram := { s.dram with
    grant := some (.source r q)
    rows := touchRows s.dram.rows (accesses s.prof q.span.1 q.span.2)
    passover := passoversAfter s.prof s.dram r
    waiting := s.dram.waiting.set r none } } := rfl

theorem beginGrant_rows (g : Grant) (s : State) :
    (s.beginGrant g).dram.grant = some g ∧ (s.beginGrant g).dram.rows = touchRows s.dram.rows (accesses s.prof g.span.1 g.span.2) := by
  cases g <;> exact ⟨rfl, rfl⟩

/-! ## The rows a request opens (R124, R127) -/

theorem rowsAfter_eq (p : Profile) (t u : Four RowEntry) (off len : Nat) : RowsAfter p t u off len =
    if (bankOf p off, rowOf p off) = (bankOf p (off + len - 1), rowOf p (off + len - 1)) then LookedUp t u (bankOf p off) (rowOf p off)
    else ∃ m, LookedUp t m (bankOf p off) (rowOf p off) ∧ LookedUp m u (bankOf p (off + len - 1)) (rowOf p (off + len - 1)) := rfl

theorem touchRows_after (p : Profile) {u : Four RowEntry} (h : rowsWf u = true) (off len : Nat) :
    RowsAfter p u (touchRows u (accesses p off len)) off len := by
  have hfirst := touchRow_lookedUp u h (bankOf p off) (rowOf p off)
  rw [rowsAfter_eq, accesses]
  by_cases he : (bankOf p off, rowOf p off) = (bankOf p (off + len - 1), rowOf p (off + len - 1))
  · rw [if_pos he, if_pos he]
    exact hfirst
  · rw [if_neg he, if_neg he]
    exact ⟨_, hfirst, touchRow_lookedUp _ (rowsWf_of_lookedUp h hfirst) _ _⟩

/-- Settles O46. -/
theorem arbiterGrantsByPolicyAndLooksUpRows : Obligations.ArbiterGrantsByPolicyAndLooksUpRows := by
  unfold Obligations.ArbiterGrantsByPolicyAndLooksUpRows
  refine ⟨fun s us hd ho hu => ⟨fun r q hw hf hin => ?_, fun hw hn => ?_, fun r q hw hf hin => ?_⟩, fun s us hu => ?_,
    fun s t us g hr hg h ht => ?_⟩
  · refine ⟨_, arbiterChoice_grants hu (hd.arbiterFree ho) (nextGrant_favours hw hf) hin, flippedBy_cellsBut us s rfl, rfl, fun hp => ?_, fun hp => ?_⟩
    · rw [beginGrant_source]
      simp [passoversAfter, State.flippedBy, hp]
    · have hpass := passoversAfter_wsp (s := s.flippedBy us) hp r
      refine ⟨(hpass r).trans (if_pos rfl), fun j hj hjw => ?_, fun j hj hjw => ?_⟩
      · exact (hpass j).trans (by rw [if_neg hj]; exact if_pos ((waits_iff s.dram j).mpr hjw))
      · exact (hpass j).trans (by rw [if_neg hj]; exact if_neg (by simp [waits_false (d := (s.flippedBy us).dram) hjw]))
  · refine arbiterChoice_idle hu ?_
    rw [nextGrant_scrub hw]
    rcases hn with hn | ⟨hc, hp⟩
    · exact if_neg (by omega)
    · simp [scrubRequest, hc, hp]
  · exact arbiterChoice_outside hu (hd.arbiterFree ho) (nextGrant_favours hw hf) hin
  · simp [exec, execArbiterChoice, hu]
  · rcases arbiterChoice_cases h with rfl | ⟨g', rfl⟩
    · rw [hg] at ht
      cases ht
    · obtain ⟨h1, h2⟩ := beginGrant_rows g' (s.flippedBy us)
      rw [h1] at ht
      cases ht
      rw [h2]
      exact touchRows_after s.prof hr _ _

/-! ## SCRUB (R133, R134, R145, R146) -/

theorem flippedBy_nil (s : State) : s.flippedBy [] = s := rfl

theorem scrub_granted {g : Grant} (hd : DramFree s) (h0 : s.dram.owed = 0) (ht : 1 ≤ s.prof.urgentThreshold)
    (hw : ∀ r, s.dram.waiting.get r = none) (hg : scrubRequest s.dram = some g) (hin : inGeometry s.prof g.span.1 g.span.2) :
    exec (.arbiterChoice []) s = .next (s.beginGrant g) := by
  have hnext : nextGrant s.prof s.dram = some g := by rw [nextGrant_scrub hw, if_pos h0, hg]
  exact arbiterChoice_grants rfl (hd.arbiterFree (by omega)) hnext hin

/-- A write-back carried out on its word, before what it reads is counted. -/
def State.wroteBack (off : Nat) (s : State) : State :=
  { s with dram := { s.dram with cells := writeBackCells s.dram.cells off, correction := s.dram.correction.tail } }

theorem writeBackEnd_eq {off : Nat} (hg : s.dram.grant = some (.writeBack off)) : exec .writeBackEnd s =
    .next ((((s.wroteBack off).eccRead false (badOnly (readDram s.dram.cells off 1))).faultRecord scrubCode
      (badOnly (readDram s.dram.cells off 1))).endGrant) := by
  simp only [exec, execWriteBackEnd, State.wroteBack, hg]

theorem badOnly_usable {off : Nat} (h : (readCode (readCell dramDefault s.dram.cells off)).bad = false) :
    badOnly (readDram s.dram.cells off 1) = [] := by
  simp [badOnly, readDram_one, h]

theorem badOnly_bad {off : Nat} {syn : BitVec 7} (h : readCode (readCell dramDefault s.dram.cells off) = .uncorrectable syn) :
    badOnly (readDram s.dram.cells off 1) = [(off, .uncorrectable syn)] := by
  simp [badOnly, readDram_one, h, EccResult.bad]

/-- One Uncorrectable word counted, with FAULT raised. -/
def State.badCounted (v : State) : State :=
  ({ v with dram := { v.dram with uncorrectable := min 65535 (v.dram.uncorrectable + 1) } } : State).raise .fault

theorem badCounted_causesKept (v : State) : CausesKept v v.badCounted [.fault] :=
  raise_causesKept .fault { v with dram := { v.dram with uncorrectable := min 65535 (v.dram.uncorrectable + 1) } }

/-- An Uncorrectable word at a write-back is counted, raises FAULT and is reported. -/
theorem wroteBack_faults (off : Nat) (syn : BitVec 7) (v : State) :
    (v.eccRead false [(off, .uncorrectable syn)]).faultRecord scrubCode [(off, .uncorrectable syn)] =
      v.badCounted.offerNow 0xF2#8 false [numWord (off * 4), 7#32, numWord syn.toNat] := rfl

theorem writeBackCells_corrected {cells : List (Nat × Code)} {off : Nat} {w : Word} (h : readCode (readCell dramDefault cells off) = .corrected w) :
    writeBackCells cells off = writeDram cells off [w] := by
  simp [writeBackCells, h]

theorem writeBackCells_kept {cells : List (Nat × Code)} {off : Nat} (h : ∀ w, readCode (readCell dramDefault cells off) ≠ .corrected w) :
    writeBackCells cells off = cells := by
  unfold writeBackCells
  split
  · next w hw => exact absurd hw (h w)
  · rfl

/-- The state once a patrol read has been carried out, before what it reads is counted. -/
def State.patrolled (s : State) : State :=
  { s with dram := { s.dram with patrol := s.dram.patrol - 1, scrub := scrubNext s.prof s.dram.scrub } }

theorem patrolReadEnd_eq {off : Nat} (hg : s.dram.grant = some (.patrol off)) : exec .patrolReadEnd s =
    .next (((s.patrolled.eccRead true (readDram s.dram.cells off 8)).faultRecord scrubCode (readDram s.dram.cells off 8)).endGrant) := by
  simp only [exec, execPatrolReadEnd, State.patrolled, hg]

/-- Settles O47. -/
theorem scrubWritesBackThenPatrols : Obligations.ScrubWritesBackThenPatrols := by
  unfold Obligations.ScrubWritesBackThenPatrols
  refine ⟨fun s hd h0 ht hw => ⟨fun off more hc hin => ?_, fun hc hp hin => ?_⟩, ?_, ?_⟩
  · exact ⟨_, scrub_granted (g := .writeBack off) hd h0 ht hw (by simp [scrubRequest, hc]) hin, rfl⟩
  · exact ⟨_, scrub_granted (g := .patrol s.dram.scrub) hd h0 ht hw (by simp [scrubRequest, hc, hp]) hin, rfl⟩
  · intro s off more hg hc he hm word
    refine ⟨fun hb => ?_, fun syn hs => ?_⟩
    · refine ⟨{ s.wroteBack off with dram := { (s.wroteBack off).dram with grant := none } }, ?_, ?_, fun a ha => ?_, fun w hw => ?_, fun w hw => ?_⟩
      · rw [writeBackEnd_eq hg, badOnly_usable hb]
        exact congrArg Host.Outcome.next (endGrant_plain (s.wroteBack off) he)
      · simp [State.wroteBack, hc]
      · cases hr : word with
        | corrected w =>
          obtain ⟨-, hout⟩ := writeDram_inside (t := s.wroteBack off) (off := off) (ws := [w]) hm (writeBackCells_corrected hr)
          exact hout a (by simp; omega)
        | clean w => exact congrArg (readCell dramDefault · a) (writeBackCells_kept (fun x hx => by simp [word, hx] at hr))
        | uncorrectable syn => exact congrArg (readCell dramDefault · a) (writeBackCells_kept (fun x hx => by simp [word, hx] at hr))
      · obtain ⟨hin, -⟩ := writeDram_inside (t := s.wroteBack off) (off := off) (ws := [w]) hm (writeBackCells_corrected hw)
        simpa [wordAt] using hin off (Nat.le_refl _) (by simp)
      · exact writeBackCells_kept (fun x hx => by simp [word, hx] at hw)
    · have hcells : writeBackCells s.dram.cells off = s.dram.cells := writeBackCells_kept (fun x hx => by simp [word, hx] at hs)
      rw [writeBackEnd_eq hg, badOnly_bad hs, wroteBack_faults]
      refine ⟨_, congrArg Host.Outcome.next (endGrant_plain _ (by simpa [State.wroteBack, State.badCounted] using he)), ?_, ?_, ?_⟩
      · rw [offerNow_eq]
        simp [State.badCounted, State.wroteBack, hcells, hc, State.raise]
      · exact offer_waiting _ (raise_waiting .fault _)
      · have ho : Offered s _ _ [.fault] := (offerNow_offered 0xF2#8 false [numWord (off * 4), 7#32, numWord syn.toNat]
          (s.wroteBack off).badCounted).before rfl rfl (badCounted_causesKept (s.wroteBack off)) (by simp)
        exact ho.after (bs := []) rfl rfl (causesKept_of_eq rfl) (by simp) (by simp)
  · intro s off hg he rs counted
    rw [patrolReadEnd_eq hg, endGrant_plain _ (by simpa [State.patrolled] using he)]
    rcases bad_cases rs with hu | hb
    · obtain ⟨n, d, ht, hn⟩ := eccRead_of_usable true s.patrolled hu
      have hcount : badCount rs = 0 := by simpa [badCount] using hu
      refine ⟨_, rfl, ?_⟩
      rw [faultRecord_usable _ _ hu, ht]
      refine ⟨rfl, hn, fun h => ?_, rfl, fun _ => ⟨rfl, rfl⟩, fun x syn hf => ?_⟩
      · rw [hcount]
        exact (Nat.min_eq_right h).symm
      · rw [firstBad_none rs hu] at hf
        cases hf
    · obtain ⟨n, m, a, o, l, ht, hn, hm, ha, x, syn, hf, ho⟩ := faultRecord_eccRead_of_bad true scrubCode s.patrolled hb
      have ho' : Offered s ((s.patrolled.eccRead true rs).faultRecord scrubCode rs) _ [.fault] := ho.before (bs := []) rfl rfl (causesKept_of_eq rfl) (by simp)
      have ho := ho'.after (t := { (s.patrolled.eccRead true rs).faultRecord scrubCode rs with
        dram := { ((s.patrolled.eccRead true rs).faultRecord scrubCode rs).dram with grant := none } }) (bs := []) (cs := [.fault])
        rfl rfl (causesKept_of_eq rfl) (by simp) (by simp)
      refine ⟨_, rfl, ?_⟩
      rw [ht] at ho ⊢
      refine ⟨rfl, hn, hm, rfl, fun hu => ?_, fun y syn' hy => ⟨ha, rfl, ?_⟩⟩
      · obtain ⟨z, hz, hzb⟩ := hb
        simp [hu z hz] at hzb
      · rw [hf] at hy
        cases hy
        exact ho

end Arbiter
end Sys2Proof.Machine

/-! PROOFS. SEC-DED: a syndrome is linear in the stored word, so what flips do does not depend on the word (R132). -/

namespace Sys2Proof.Machine
open Sys2Proof Sys2Proof.Machine Sys2Proof.Machine.Claims

section Ecc

/-! ## Parity and check bits are linear -/

/-- One halving of a parity. -/
def halved (k n : Nat) : Nat := n ^^^ (n >>> k)

theorem halved_xor (k a b : Nat) : halved k (a ^^^ b) = halved k a ^^^ halved k b := by
  simp only [halved, Nat.shiftRight_xor_distrib]
  ac_rfl

theorem parityNat_eq (n : Nat) : parityNat n = (halved 1 (halved 2 (halved 4 (halved 8 (halved 16 (halved 32 n)))))).testBit 0 := by
  rw [Nat.testBit_zero]
  exact beq_decides _ _

theorem parityNat_xor (a b : Nat) : parityNat (a ^^^ b) = (parityNat a ^^ parityNat b) := by
  simp only [parityNat_eq, halved_xor, Nat.testBit_xor]

theorem checkBit_xor (a b : Word) (i : Nat) : checkBit (a ^^^ b) i = (checkBit a i ^^ checkBit b i) := by
  rw [checkBit, BitVec.toNat_and, BitVec.toNat_xor, Nat.and_xor_distrib_right, parityNat_xor]
  simp only [checkBit, BitVec.toNat_and]

/-! ## The bits of a syndrome -/

/-- Six flags as the number they spell. -/
def flags6 (b : Fin 6 → Bool) : Nat := flag 0 (b 0) + flag 1 (b 1) + flag 2 (b 2) + flag 3 (b 3) + flag 4 (b 4) + flag 5 (b 5)

theorem lowChecks_eq (d : Word) : lowChecks d = flags6 (fun i => checkBit d i) := rfl

theorem flags6_lt (b : Fin 6 → Bool) : flags6 b < 64 := by
  have h : ∀ (k : Nat) (x : Bool), flag k x ≤ 2 ^ k := fun k x => by cases x <;> simp [flag]
  have h0 := h 0 (b 0)
  have h1 := h 1 (b 1)
  have h2 := h 2 (b 2)
  have h3 := h 3 (b 3)
  have h4 := h 4 (b 4)
  have h5 := h 5 (b 5)
  unfold flags6
  omega

theorem lowChecks_lt (d : Word) : lowChecks d < 64 := flags6_lt (fun i => checkBit d i)

theorem flags6_testBit (b : Fin 6 → Bool) (i : Fin 6) : (flags6 b).testBit i = b i := by
  have key : ∀ b0 b1 b2 b3 b4 b5 : Bool, ∀ i : Fin 6,
      (flag 0 b0 + flag 1 b1 + flag 2 b2 + flag 3 b3 + flag 4 b4 + flag 5 b5).testBit i =
        [b0, b1, b2, b3, b4, b5].get i := by decide +kernel
  rw [flags6, key]
  match i with
  | 0 | 1 | 2 | 3 | 4 | 5 => rfl

theorem testBit_add_flag6 {n : Nat} (h : n < 64) (b : Bool) (i : Nat) (hi : i < 7) :
    (n + flag 6 b).testBit i = if i = 6 then b else n.testBit i := by
  have key : ∀ n : Fin 64, ∀ b : Bool, ∀ i : Fin 7, (n.val + flag 6 b).testBit i = if i.val = 6 then b else n.val.testBit i := by decide +kernel
  exact key ⟨n, h⟩ b ⟨i, hi⟩

theorem syndrome_bit (c : Code) (i : Nat) (hi : i < 7) : (syndrome c).getLsbD i =
    if i = 6 then parityNat c.toNat else checkBit (codeData c) i ^^ (codeChecks c).getLsbD i := by
  have hlow : lowChecks (codeData c) ^^^ ((codeChecks c).toNat % 64) < 64 :=
    Nat.xor_lt_two_pow (n := 6) (lowChecks_lt _) (Nat.mod_lt _ (by omega))
  rw [syndrome, BitVec.getLsbD_ofNat, testBit_add_flag6 hlow _ i hi]
  by_cases h6 : i = 6
  · simp [h6]
  · have h := flags6_testBit (fun i => checkBit (codeData c) i) ⟨i, by omega⟩
    have hm : ((codeChecks c).toNat % 64).testBit i = (codeChecks c).toNat.testBit i := by
      rw [show 64 = 2 ^ 6 from rfl, Nat.testBit_mod_two_pow]
      simp; omega
    simp only [h6, if_false, hi, decide_true, Bool.true_and, Nat.testBit_xor, lowChecks_eq, hm]
    rw [h]
    rfl

theorem syndrome_xor (c d : Code) : syndrome (c ^^^ d) = syndrome c ^^^ syndrome d := by
  refine BitVec.eq_of_getLsbD_eq (fun i hi => ?_)
  have hdata : codeData (c ^^^ d) = codeData c ^^^ codeData d := BitVec.extractLsb'_xor
  have hchecks : codeChecks (c ^^^ d) = codeChecks c ^^^ codeChecks d := BitVec.extractLsb'_xor
  rw [BitVec.getLsbD_xor, syndrome_bit _ i hi, syndrome_bit _ i hi, syndrome_bit _ i hi, BitVec.toNat_xor, parityNat_xor, hdata, hchecks,
    checkBit_xor, BitVec.getLsbD_xor]
  split
  · rfl
  · simp only [Bool.xor_assoc, Bool.xor_left_comm]

/-! ## A word as it is stored -/

theorem codeData_encodeWord (w : Word) : codeData (encodeWord w) = w := BitVec.extractLsb'_append_eq_right

theorem codeChecks_encodeWord (w : Word) : codeChecks (encodeWord w) = checkBits w := BitVec.extractLsb'_append_eq_left

theorem checkBits_bit (w : Word) (i : Nat) (hi : i < 7) :
    (checkBits w).getLsbD i = if i = 6 then parityNat (lowChecks w) ^^ parityNat w.toNat else checkBit w i := by
  rw [checkBits, BitVec.getLsbD_ofNat, testBit_add_flag6 (lowChecks_lt w) _ i hi]
  by_cases h6 : i = 6
  · simp [h6]
  · have h := flags6_testBit (fun i => checkBit w i) ⟨i, by omega⟩
    simp only [h6, if_false, hi, decide_true, Bool.true_and, lowChecks_eq]
    exact h

theorem parity_checkBits (w : Word) : parityNat (checkBits w).toNat = parityNat w.toNat := by
  have key : ∀ n : Fin 64, ∀ b : Bool, parityNat (BitVec.ofNat 7 (n.val + flag 6 b)).toNat = (parityNat n.val ^^ b) := by decide +kernel
  have h := key ⟨lowChecks w, lowChecks_lt w⟩ (parityNat (lowChecks w) ^^ parityNat w.toNat)
  rw [checkBits, h]
  cases parityNat (lowChecks w) <;> simp

theorem parity_encodeWord (w : Word) : parityNat (encodeWord w).toNat = false := by
  have key : ∀ k : BitVec 7, parityNat (k.toNat <<< 32) = parityNat k.toNat := by decide +kernel
  have hs : (encodeWord w).toNat = (checkBits w).toNat <<< 32 ^^^ w.toNat := by
    rw [encodeWord, BitVec.toNat_append]
    refine Nat.eq_of_testBit_eq (fun i => ?_)
    rw [Nat.testBit_or, Nat.testBit_xor, Nat.testBit_shiftLeft]
    by_cases hi : 32 ≤ i
    · rw [Nat.testBit_lt_two_pow (Nat.lt_of_lt_of_le w.isLt (Nat.pow_le_pow_right (by omega) hi)), Bool.or_false, Bool.xor_false]
    · simp [hi]
  rw [hs, parityNat_xor, key, parity_checkBits, Bool.xor_self]

theorem syndrome_encodeWord (w : Word) : syndrome (encodeWord w) = 0#7 := by
  refine BitVec.eq_of_getLsbD_eq (fun i hi => ?_)
  rw [syndrome_bit _ i hi, codeData_encodeWord, codeChecks_encodeWord, checkBits_bit _ i hi, parity_encodeWord]
  split <;> simp

/-! ## What a flip does -/

/-- A word with one bit set, the flip of a position. -/
def flipAt (i : Nat) : Code := 1#39 <<< i

theorem flipped_eq (c : Code) (i : Nat) : flipped c i = c ^^^ flipAt i := rfl

/-- The syndromes of the 39 flips: odd ones, at a position of the code, that restores the data bit flipped. -/
theorem flipAt_spec : ∀ i : Fin 39, (syndrome (flipAt i)).getLsbD 6 = true ∧ (syndrome (flipAt i)).toNat % 64 ≤ 38 ∧
    restoreAt 0#32 ((syndrome (flipAt i)).toNat % 64) = codeData (flipAt i) := by decide +kernel

theorem flipAt_injective : ∀ i j : Fin 39, syndrome (flipAt i) = syndrome (flipAt j) → i = j := by decide +kernel

theorem restoreAt_xor (d : Word) (pos : Nat) : restoreAt d pos = d ^^^ restoreAt 0#32 pos := by
  unfold restoreAt
  split <;> simp

theorem readCode_clean {c : Code} (h : syndrome c = 0#7) : readCode c = .clean (codeData c) := by simp [readCode, h]

theorem readCode_flipped {c : Code} (h : syndrome c = 0#7) {i : Nat} (hi : i < 39) : readCode (flipped c i) = .corrected (codeData c) := by
  obtain ⟨hodd, hpos, hrest⟩ := flipAt_spec ⟨i, hi⟩
  have hs : syndrome (flipped c i) = syndrome (flipAt i) := by rw [flipped_eq, syndrome_xor, h, BitVec.zero_xor]
  have hne : syndrome (flipAt i) ≠ 0#7 := fun h0 => by simp [h0] at hodd
  have hdata : codeData (flipped c i) = codeData c ^^^ codeData (flipAt i) := BitVec.extractLsb'_xor
  simp only [readCode, hs, if_neg hne, hodd, hpos, decide_true, Bool.and_self, if_true]
  rw [restoreAt_xor, hrest, hdata, BitVec.xor_assoc, BitVec.xor_self, BitVec.xor_zero]

theorem readCode_flipped_twice {c : Code} (h : syndrome c = 0#7) {i j : Nat} (hi : i < 39) (hj : j < 39) (hij : i ≠ j) :
    (readCode (flipped (flipped c i) j)).bad = true := by
  obtain ⟨hodd, -⟩ := flipAt_spec ⟨i, hi⟩
  obtain ⟨hodd', -⟩ := flipAt_spec ⟨j, hj⟩
  have hs : syndrome (flipped (flipped c i) j) = syndrome (flipAt i) ^^^ syndrome (flipAt j) := by
    rw [flipped_eq, flipped_eq, syndrome_xor, syndrome_xor, h, BitVec.zero_xor]
  have hne : syndrome (flipAt i) ^^^ syndrome (flipAt j) ≠ 0#7 := fun h0 => by
    have := flipAt_injective ⟨i, hi⟩ ⟨j, hj⟩ (BitVec.xor_eq_zero_iff.mp h0)
    exact hij (by simpa using this)
  have heven : (syndrome (flipAt i) ^^^ syndrome (flipAt j)).getLsbD 6 = false := by
    rw [BitVec.getLsbD_xor, hodd, hodd']
    rfl
  simp only [readCode, hs, if_neg hne, heven, Bool.false_and]
  rfl

/-- Settles O48. -/
theorem eccCorrectsOneFlipAndReportsTwo : Obligations.EccCorrectsOneFlipAndReportsTwo := by
  unfold Obligations.EccCorrectsOneFlipAndReportsTwo
  refine ⟨by decide, fun w => ⟨?_, fun i hi => ?_, fun i j hi hj hij => readCode_flipped_twice (syndrome_encodeWord w) hi hj hij⟩⟩
  · rw [readCode_clean (syndrome_encodeWord w), codeData_encodeWord]
  · rw [readCode_flipped (syndrome_encodeWord w) hi, codeData_encodeWord]

end Ecc
end Sys2Proof.Machine

/-! PROOFS. Records abandoned at an event, several records offered in order, payload writes latched (R14 to R16, R23, R31, R34; log 37). -/

namespace Sys2Proof.Machine
open Sys2Proof Sys2Proof.Machine Sys2Proof.Machine.Claims

section Abandonments

variable {s t u : State} {p q : Port} {c d : ClassId} {cause : Nat} {rs qs : List Record} {as bs cs : List Cause} {r : Record}

/-! ## Several records offered (R31, R34) -/

theorem offeredAll_none (ho : t.stg.outbox = s.stg.outbox) (hl : t.stg.lost = s.stg.lost) (hk : CausesKept s t cs) : OfferedAll s t [] cs := by
  refine ⟨hk.mono (fun c hc => List.mem_cons_of_mem _ hc), fun h8 hmax => ⟨by simp [ho], ?_, fun _ => hk, fun h => ?_⟩⟩
  · rw [hl]
    simp [hmax]
  · simp only [List.length_nil] at h
    omega

theorem offeredAll_one (h : Offered s t r cs) : OfferedAll s t [r] cs := by
  obtain ⟨room, full⟩ := h
  by_cases hl : s.stg.outbox.length < 8
  · obtain ⟨ho, hlost, hk⟩ := room hl
    refine ⟨hk.mono (fun c hc => List.mem_cons_of_mem _ hc), fun h8 hmax => ⟨?_, ?_, fun _ => hk, fun h => ?_⟩⟩
    · rw [ho, List.take_of_length_le (by simp; omega)]
    · rw [hlost]
      simp only [List.length_singleton]
      omega
    · simp only [List.length_singleton] at h
      omega
  · obtain ⟨ho, hlost, hw, hk⟩ := full (Nat.le_of_not_lt hl)
    refine ⟨hk, fun h8 _ => ⟨?_, ?_, fun h => ?_, fun _ => hw⟩⟩
    · rw [ho, show 8 - s.stg.outbox.length = 0 by omega]
      simp
    · rw [hlost]
      simp only [List.length_singleton]
      omega
    · simp only [List.length_singleton] at h
      omega

/-- Records offered after others: the outbox takes them in order. -/
theorem Claims.OfferedAll.trans (h : OfferedAll s t rs as) (k : OfferedAll t u qs bs) (hn : Cause.lost ∉ bs)
    (hs : ∀ c, c ∈ as ∨ c ∈ bs → c ∈ cs) : OfferedAll s u (rs ++ qs) cs := by
  obtain ⟨hk, hmore⟩ := h
  obtain ⟨kk, kmore⟩ := k
  refine ⟨hk.trans kk ?_, fun h8 hmax => ?_⟩
  · intro c hc
    simp only [List.mem_cons] at hc ⊢
    rcases hc with (rfl | hc) | (rfl | hc)
    · exact .inl rfl
    · exact .inr (hs c (.inl hc))
    · exact .inl rfl
    · exact .inr (hs c (.inr hc))
  · obtain ⟨ho, hl, hfit, hover⟩ := hmore h8 hmax
    have hlen : t.stg.outbox.length = min 8 (s.stg.outbox.length + rs.length) := by
      rw [ho, List.length_append, List.length_take]
      omega
    obtain ⟨ko, kl, kfit, kover⟩ := kmore (by omega) (by omega)
    refine ⟨?_, ?_, fun hf => ?_, fun hf => ?_⟩
    · rw [ko, ho, List.take_append, List.append_assoc]
      congr 3
      simp
      omega
    · rw [kl, hl, hlen, List.length_append]
      omega
    · rw [List.length_append] at hf
      exact (hfit (by omega)).trans (kfit (by omega)) hs
    · rw [List.length_append] at hf
      by_cases hq : t.stg.outbox.length + qs.length ≤ 8
      · rw [kfit hq .lost hn]
        exact hover (by omega)
      · exact kover (by omega)

/-- What follows the offers and touches neither the outbox nor its count. -/
theorem Claims.OfferedAll.after (h : OfferedAll s t rs as) (ho : u.stg.outbox = t.stg.outbox) (hl : u.stg.lost = t.stg.lost)
    (hk : CausesKept t u bs) (hn : Cause.lost ∉ bs) (hs : ∀ c, c ∈ as ∨ c ∈ bs → c ∈ cs) : OfferedAll s u rs cs := by
  have := h.trans (offeredAll_none ho hl hk) hn hs
  rwa [List.append_nil] at this

/-- What comes before the offers and touches neither the outbox nor its count. -/
theorem Claims.OfferedAll.before (h : OfferedAll t u rs as) (ho : t.stg.outbox = s.stg.outbox) (hl : t.stg.lost = s.stg.lost)
    (hk : CausesKept s t bs) (hn : Cause.lost ∉ as) (hs : ∀ c, c ∈ bs ∨ c ∈ as → c ∈ cs) : OfferedAll s u rs cs :=
  (offeredAll_none ho hl hk).trans h hn hs

/-! ## One record abandoned (R14, R23) -/

/-- The ABANDONED record of a context, if it is open. -/
def abandonRecord (s : State) (p : Port) (c : ClassId) (cause : Nat) : List Record :=
  ((s.context p c).map (fun x => partRecord 0xF7#8 false s.stamp [BitVec.ofNat 32 (portCode p), BitVec.ofNat 32 c.val,
    BitVec.ofNat 32 x.kind.toNat, BitVec.ofNat 32 x.received, BitVec.ofNat 32 cause])).toList

theorem abandonments_eq (s : State) (p : Port) (cause : Nat) : abandonments s p cause =
    abandonRecord s p 0 cause ++ (abandonRecord s p 1 cause ++ (abandonRecord s p 2 cause ++ abandonRecord s p 3 cause)) := by
  have key : ∀ (f : ClassId → Option Record), ([0, 1, 2, 3] : List ClassId).filterMap f =
      (f 0).toList ++ ((f 1).toList ++ ((f 2).toList ++ (f 3).toList)) := fun f => by
    cases h0 : f 0 <;> cases h1 : f 1 <;> cases h2 : f 2 <;> cases h3 : f 3 <;> simp [h0, h1, h2, h3]
  exact key _

/-- The slots that the open contexts among `ps` reserve in a class (R22). -/
def openCount (s : State) (ps : List Port) (c : ClassId) : Nat := (ps.filter (fun p => (s.context p c).isSome)).length

/-- One state with the contexts, rings, outbox and reports of another. -/
def State.withAbandoned (s t : State) : State := { s with
  ctx := t.ctx
  stg := { s.stg with rings := t.stg.rings, outbox := t.stg.outbox, lost := t.stg.lost }
  mir := { s.mir with dirty := t.mir.dirty, attention := t.mir.attention } }

theorem withAbandoned_trans (h : t = s.withAbandoned t) (k : u = t.withAbandoned u) : u = s.withAbandoned u := by
  calc u = t.withAbandoned u := k
    _ = (s.withAbandoned t).withAbandoned u := congrArg (State.withAbandoned · u) h
    _ = s.withAbandoned u := rfl

theorem abandon_withAbandoned (p : Port) (c : ClassId) (cause : Nat) (s : State) : s.abandon p c cause = s.withAbandoned (s.abandon p c cause) := by
  cases h : s.context p c with
  | none => rw [State.abandon_none p c cause s h]; rfl
  | some x =>
    rw [(State.abandon_abandoned p c cause s x h).1]
    rfl

theorem abandon_ctx (p : Port) (c : ClassId) (cause : Nat) (s : State) :
    (s.abandon p c cause).ctx = s.ctx.set p ((s.ctx.get p).set c none) := by
  cases h : s.context p c with
  | none =>
    have hfour : (s.ctx.get p).set c none = s.ctx.get p := by
      rw [← show (s.ctx.get p).get c = none from h]
      match c with
      | 0 | 1 | 2 | 3 => rfl
    rw [State.abandon_none p c cause s h, hfour]
    cases p <;> rfl
  | some x => rw [(State.abandon_abandoned p c cause s x h).1]

theorem abandon_context_ne (h : d ≠ c) : (s.abandon p c cause).context p d = s.context p d := by
  rw [State.context, abandon_ctx, PerPort.get_set_same, Four.get_set_ne _ _ _ _ h]
  rfl

theorem abandon_context_other (h : q ≠ p) : (s.abandon p c cause).context q d = s.context q d := by
  rw [State.context, abandon_ctx, PerPort.get_set_ne _ _ _ _ h]
  rfl

theorem abandon_stamp : (s.abandon p c cause).stamp = s.stamp := by simp [State.stamp]

theorem abandonRecord_congr (hc : t.context q d = s.context q d) (hs : t.stamp = s.stamp) : abandonRecord t q d cause = abandonRecord s q d cause := by
  rw [abandonRecord, hc, hs, abandonRecord]

theorem abandon_offeredAll (p : Port) (c : ClassId) (cause : Nat) (s : State) :
    OfferedAll s (s.abandon p c cause) (abandonRecord s p c cause) [] := by
  cases h : s.context p c with
  | none =>
    rw [State.abandon_none p c cause s h, abandonRecord, h]
    exact offeredAll_none rfl rfl (causesKept_of_eq rfl)
  | some x =>
    rw [abandonRecord, h]
    exact offeredAll_one (State.abandon_abandoned p c cause s x h).2

theorem abandon_rings (p : Port) (c : ClassId) (cause : Nat) (s : State) : (s.abandon p c cause).stg.rings =
    s.stg.rings.set c { s.stg.rings.get c with reserved := (s.stg.rings.get c).reserved - openCount s [p] c } := by
  cases h : s.context p c with
  | none =>
    rw [State.abandon_none p c cause s h]
    have h0 : openCount s [p] c = 0 := by simp [openCount, h]
    rw [h0]
    match c with
    | 0 | 1 | 2 | 3 => rfl
  | some x =>
    rw [(State.abandon_abandoned p c cause s x h).1]
    simp [openCount, h]

/-! ## All records of a port abandoned (R15, R16, R23) -/

theorem abandonPort_withAbandoned (p : Port) (cause : Nat) (s : State) : s.abandonPort p cause = s.withAbandoned (s.abandonPort p cause) :=
  withAbandoned_trans (withAbandoned_trans (withAbandoned_trans (abandon_withAbandoned p 0 cause s) (abandon_withAbandoned p 1 cause _))
    (abandon_withAbandoned p 2 cause _)) (abandon_withAbandoned p 3 cause _)

theorem abandonPort_ctx (p : Port) (cause : Nat) (s : State) : (s.abandonPort p cause).ctx = s.ctx.set p (Four.const none) := by
  simp only [State.abandonPort, abandon_ctx, PerPort.get_set_same, PerPort.set_set]
  rfl

theorem abandonPort_offeredAll (p : Port) (cause : Nat) (s : State) : OfferedAll s (s.abandonPort p cause) (abandonments s p cause) [] := by
  have h0 := abandon_offeredAll p 0 cause s
  have h1 := abandon_offeredAll p 1 cause (s.abandon p 0 cause)
  have h2 := abandon_offeredAll p 2 cause ((s.abandon p 0 cause).abandon p 1 cause)
  have h3 := abandon_offeredAll p 3 cause (((s.abandon p 0 cause).abandon p 1 cause).abandon p 2 cause)
  rw [abandonRecord_congr (s := s) (by rw [abandon_context_ne (by decide)]) (by rw [abandon_stamp])] at h1
  rw [abandonRecord_congr (s := s) (by rw [abandon_context_ne (by decide), abandon_context_ne (by decide)]) (by rw [abandon_stamp, abandon_stamp])] at h2
  rw [abandonRecord_congr (s := s) (by rw [abandon_context_ne (by decide), abandon_context_ne (by decide), abandon_context_ne (by decide)])
    (by rw [abandon_stamp, abandon_stamp, abandon_stamp])] at h3
  have h := ((h0.trans h1 (by simp) (cs := []) (by simp)).trans h2 (by simp) (cs := []) (by simp)).trans h3 (by simp) (cs := []) (by simp)
  rw [List.append_assoc, List.append_assoc, ← abandonments_eq] at h
  exact h

theorem openCount_congr {ps : List Port} (h : ∀ p ∈ ps, t.context p c = s.context p c) : openCount t ps c = openCount s ps c := by
  unfold openCount
  exact congrArg List.length (List.filter_congr (fun p hp => by rw [h p hp]))

theorem abandonPort_rings (p : Port) (cause : Nat) (s : State) (d : ClassId) : (s.abandonPort p cause).stg.rings.get d =
    { s.stg.rings.get d with reserved := (s.stg.rings.get d).reserved - openCount s [p] d } := by
  have hcount : ∀ (v : State) (c : ClassId), d ≠ c → openCount (v.abandon p c cause) [p] d = openCount v [p] d := fun v c hc =>
    openCount_congr (fun q hq => by rw [List.mem_singleton.mp hq, abandon_context_ne hc])
  match d with
  | 0 => simp [State.abandonPort, abandon_rings, Four.get_set_ne]
  | 1 => simp [State.abandonPort, abandon_rings, Four.get_set_ne, hcount]
  | 2 => simp [State.abandonPort, abandon_rings, Four.get_set_ne, hcount]
  | 3 => simp [State.abandonPort, abandon_rings, Four.get_set_ne, hcount]

theorem abandonPort_context_other (h : q ≠ p) : (s.abandonPort p cause).context q d = s.context q d := by
  rw [State.context, abandonPort_ctx, PerPort.get_set_ne _ _ _ _ h]
  rfl

theorem abandonments_congr (hc : ∀ d, t.context p d = s.context p d) (hs : t.stamp = s.stamp) : abandonments t p cause = abandonments s p cause := by
  simp only [abandonments, hc, hs]

/-! ## Payload writes in carry (R15, R16; log 37) -/

theorem payloadInCarry_iff (s : State) (p : Port) : PayloadInCarry s p ↔ (s.ports.get p).carry = .untaken ∧ (s.taking p).isPayload = true := by
  constructor
  · rintro ⟨hs, hc, hg, r, rest, c, k, hq, hl⟩
    have ht : s.taking p = lookup s.prof.windows r := taking_served s p r rest hs hc hq hg
    refine ⟨hc, ?_⟩
    rcases hl with hl | ⟨hk, hl⟩ <;> rw [ht, hl]
    · rfl
    · simpa [Dispatch.isPayload] using hk
  · rintro ⟨hc, ht⟩
    have hs : s.su.supply = .running := by
      refine Decidable.byContradiction fun hs => ?_
      simp [State.taking, hs, Dispatch.isPayload] at ht
    cases hq : (s.ports.get p).queue with
    | nil => simp [State.taking, hs, hc, State.currentRequest, hq, Dispatch.isPayload] at ht
    | cons r rest =>
      have hd : s.taking p = s.dispatch p r := by simp [State.taking, hs, hc, State.currentRequest, hq]
      rw [hd, State.dispatch] at ht
      cases hg : s.gate p with
      | hold => simp [hg, Dispatch.isPayload] at ht
      | refuse x => simp [hg, Dispatch.isPayload] at ht
      | serve =>
        rw [hg] at ht
        refine ⟨hs, hc, hg, r, rest, ?_⟩
        cases hl : lookup s.prof.windows r <;> simp [hl, Dispatch.isPayload] at ht
        · next c k => exact ⟨c, k, hq, .inl rfl⟩
        · next c k => exact ⟨c, k, hq, .inr ⟨ht, rfl⟩⟩

theorem latchPayload_get_ne (h : q ≠ p) : (s.latchPayload p).ports.get q = s.ports.get q := by
  rcases State.latchPayload_cases p s with e | e <;> rw [e]
  exact PerPort.get_set_ne _ _ _ _ h

theorem latchPayload_latches (h : PayloadInCarry s p) : (s.latchPayload p).ports.get p = { s.ports.get p with carry := .taken } := by
  rw [State.latchPayload, if_pos ((payloadInCarry_iff s p).mp h).2]
  simp [State.setCarry, State.setPort]

theorem latchPayload_keeps (h : ¬ PayloadInCarry s p) : (s.latchPayload p).ports.get p = s.ports.get p := by
  unfold State.latchPayload
  split
  · next ht =>
    have hc : (s.ports.get p).carry = .taken := by
      have hu : (s.ports.get p).carry ≠ .untaken := fun hc => h ((payloadInCarry_iff s p).mpr ⟨hc, ht⟩)
      unfold State.taking at ht
      cases hx : (s.ports.get p).carry <;> simp [hx] at hu ⊢
      all_goals
        rw [hx] at ht
        split at ht <;> simp [Dispatch.isPayload] at ht
    simp [State.setCarry, State.setPort, ← hc]
  · rfl

theorem latchPayload_latched (s : State) (p : Port) (h : t.ports = (s.latchPayload p).ports) : Latched s t [p] := by
  intro q
  rw [h]
  by_cases hq : q = p
  · subst hq
    refine ⟨fun _ hp => latchPayload_latches hp, fun hn => latchPayload_keeps (hn.resolve_left (by simp))⟩
  · exact ⟨fun hm => absurd (List.mem_singleton.mp hm) hq, fun _ => latchPayload_get_ne hq⟩

theorem payloadInCarry_latched (h : q ≠ p) : PayloadInCarry (s.latchPayload p) q ↔ PayloadInCarry s q := by
  have hg : (s.latchPayload p).gate q = s.gate q := State.gate_congr s (s.latchPayload p) q (by simp) (by simp) (by simp)
  simp only [PayloadInCarry, hg, latchPayload_get_ne h, State.latchPayload_frame]

/-- Both ports at an event that abandons the records of both. -/
theorem latchPayload_latched_both (s : State) (h : t.ports = ((s.latchPayload .svp).latchPayload .mnp).ports) : Latched s t [.svp, .mnp] := by
  intro q
  rw [h]
  cases q with
  | svp =>
    rw [latchPayload_get_ne (by decide)]
    exact ⟨fun _ hp => latchPayload_latches hp, fun hn => latchPayload_keeps (hn.resolve_left (by simp))⟩
  | mnp =>
    have hiff := payloadInCarry_latched (s := s) (p := .svp) (q := .mnp) (by decide)
    have hkeep := latchPayload_get_ne (s := s) (p := .svp) (q := .mnp) (by decide)
    rw [← hkeep, ← hiff]
    exact ⟨fun _ hp => latchPayload_latches hp, fun hn => latchPayload_keeps (hn.resolve_left (by simp))⟩

end Abandonments
end Sys2Proof.Machine

/-! PROOFS. The entries to SETTLING, ROUSED and RUN (R45, R46, R54, R153, R160, R161, R170). -/

namespace Sys2Proof.Machine
open Sys2Proof Sys2Proof.Machine Sys2Proof.Machine.Claims

section Entries

variable {s t v : State}

/-! ## What settling reports, and what a drain closes (R46, R54) -/

theorem Calm.congr (h : Calm s) (hc : v.com = s.com) : Calm v := by
  unfold Calm at *
  rw [hc]
  exact h

theorem settledCom_calm (h : Calm v) : v.settledCom = v.com := by
  obtain ⟨hf, hh, he, -⟩ := h
  exact settledCom_filling hh hf (drainClose_of_empty he)

theorem settle_calm (h : Calm v) : v.settle = v := by
  rw [State.settle_eq, settledCom_calm h]
  exact noteStall_quiet (.inl h.2.2.2)

/-- What settling reports: nothing, or a stall not yet noted. -/
theorem settle_reports (v : State) : ∃ more raised, Stalls v more raised ∧ OfferedAll v v.settle more raised ∧
    (Calm v → v.settle.com = v.com ∧ more = []) ∧ Cause.lost ∉ raised := by
  rw [State.settle_eq]
  have hhead := settledCom_sameHead v
  by_cases hcalm : Calm v
  · have hq : ({ v with com := v.settledCom } : State).noteStall = v := by
      rw [← State.settle_eq]
      exact settle_calm hcalm
    rw [hq]
    exact ⟨[], [], .inl ⟨rfl, rfl⟩, offeredAll_none rfl rfl (causesKept_of_eq rfl), fun _ => ⟨rfl, rfl⟩, by simp⟩
  · rcases noteStall_cases { v with com := v.settledCom } with ⟨hq, -⟩ | ⟨hs, hf⟩
    · rw [hq]
      exact ⟨[], [], .inl ⟨rfl, rfl⟩, offeredAll_none rfl rfl (causesKept_of_eq rfl), fun h => absurd h hcalm, by simp⟩
    · obtain ⟨_, _, _, -, ho, -⟩ := noteStall_stalls hs hf
      have hone := (offeredAll_one ho).before (s := v) (bs := []) rfl rfl (causesKept_of_eq rfl) (by simp) (cs := [.full]) (by simp)
      refine ⟨_, [.full], .inr ⟨hhead.full.symm.trans hf, ?_, rfl⟩, hone, fun h => absurd h hcalm, by simp⟩
      rw [← hhead.headBlock]
      rfl

theorem drained_iff (c : Commit) : c.drained = true ↔ ∀ i, c.queues.get i = [] := by
  rw [Commit.drained, List.all_eq_true]
  refine ⟨fun h i => ?_, fun h x hx => ?_⟩
  · simpa using h _ ((Four.mem_toList c.queues _).mpr ⟨i, rfl⟩)
  · obtain ⟨i, rfl⟩ := (Four.mem_toList c.queues x).mp hx
    simp [h i]

theorem settle_drainCloses (hp : v.pow.state.drains = true) : DrainCloses v v.settle := by
  intro f hf hr hq hs hh
  have hsome : v.com.filling.isSome = true := by simp [hf]
  have hturn := Commit.turnOver_filling v.prof hh hsome
  have hdrain : v.drainClose = true := by
    simp [State.drainClose, hp, (drained_iff v.com).mpr hq, hs, hh, Commit.fillingHolds, hf, hr]
  have hcom : v.settledCom = (v.com.close .drain).turnOver v.prof := by
    rw [State.settledCom, hturn]
    exact if_pos hdrain
  rw [settle_com, hcom, Commit.close_filling hf, Commit.turnOver_unheld _ (by exact hh), Commit.refill_eq]

theorem drainCloses_of {v : State} (h : DrainCloses v v.settle) (hc : v.com = s.com) (hq : v.stg.queue = s.stg.queue) : DrainCloses s v.settle := by
  unfold DrainCloses at *
  rw [hc, hq] at h
  exact h

theorem stalls_of {more : List Record} {raised : List Cause} (h : Stalls v more raised) (hc : v.com = s.com) (hs : v.stamp = s.stamp) :
    Stalls s more raised := by
  unfold Stalls journalEvent at *
  rw [hc, hs] at h
  exact h

/-! ## Abandoned ports: what is left alone -/

@[simp] theorem abandonPort_kept (p : Port) (cause : Nat) (s : State) : (s.abandonPort p cause).stg.queue = s.stg.queue ∧
    (s.abandonPort p cause).stg.writing = s.stg.writing ∧ (s.abandonPort p cause).stg.last = s.stg.last ∧
    (s.abandonPort p cause).mir.gen = s.mir.gen ∧ (s.abandonPort p cause).mir.last = s.mir.last ∧
    (s.abandonPort p cause).mir.write = s.mir.write := by
  rw [abandonPort_withAbandoned]
  exact ⟨rfl, rfl, rfl, rfl, rfl, rfl⟩

@[simp] theorem settle_mirror (s : State) : s.settle.mir.gen = s.mir.gen ∧ s.settle.mir.last = s.mir.last ∧ s.settle.mir.write = s.mir.write := by
  rw [settle_frame_eq]
  exact ⟨rfl, rfl, rfl⟩

/-! ## SETTLING (R153) -/

/-- SVP's records abandoned, with a payload write in carry latched. -/
def State.svpAbandoned (cause : Nat) (s : State) : State := (s.latchPayload .svp).abandonPort .svp cause

theorem svpAbandoned_offeredAll (cause : Nat) (s : State) : OfferedAll s (s.svpAbandoned cause) (abandonments s .svp cause) [] := by
  have h := abandonPort_offeredAll .svp cause (s.latchPayload .svp)
  rw [abandonments_congr (s := s) (fun d => by simp [State.context]) (by simp [State.stamp])] at h
  exact h.before (bs := []) (by simp) (by simp) (causesKept_of_eq (by simp)) (by simp) (by simp)

theorem svpAbandoned_released (cause : Nat) (s : State) (h : t.stg.rings = (s.svpAbandoned cause).stg.rings) : Released s t [.svp] := by
  intro c
  rw [h, State.svpAbandoned, abandonPort_rings, openCount_congr (s := s) (fun q _ => by simp [State.context])]
  simp [openCount]

theorem svpAbandoned_ctx (cause : Nat) (s : State) : (s.svpAbandoned cause).ctx = { s.ctx with svp := Four.const none } := by
  rw [State.svpAbandoned, abandonPort_ctx]
  simp
  rfl

/-- The state that has entered SETTLING, before it settles. -/
def State.toSettling (s : State) : State :=
  { (s.svpAbandoned 4).setPower .settling with quiet.remaining := none }

theorem enterSettling_eq (s : State) : s.enterSettling = s.toSettling.settle := rfl

theorem inSettling (s : State) : InSettling s s.enterSettling := by
  rw [enterSettling_eq]
  have hcom : s.toSettling.com = s.com := by simp [State.toSettling, State.svpAbandoned]
  have hqueue : s.toSettling.stg.queue = s.stg.queue := by simp [State.toSettling, State.svpAbandoned]
  have hstamp : s.toSettling.stamp = s.stamp := by simp [State.toSettling, State.svpAbandoned, State.setPower, State.stamp]
  have hall := (svpAbandoned_offeredAll 4 s).after (u := s.toSettling) (bs := []) (cs := []) rfl rfl (causesKept_of_eq rfl) (by simp) (by simp)
  obtain ⟨more, raised, hst, hoff, hcalm, hlost⟩ := settle_reports s.toSettling
  refine ⟨?_, ?_, ?_, drainCloses_of (settle_drainCloses rfl) hcom hqueue, more, raised, stalls_of hst hcom hstamp,
    hall.trans hoff hlost (by simp), fun h => ?_⟩
  · refine State.eq_of_fields ?_ ?_ ?_ (Staging.eq_of_fields ?_ ?_ ?_ ?_ ?_ ?_) ?_ ?_ ?_ ?_ ?_ ?_ ?_ ?_ (Mirror.eq_of_fields ?_ ?_ ?_ ?_ ?_) ?_ ?_ ?_
    all_goals simp [State.toSettling, State.svpAbandoned, State.setPower, abandonPort_ctx, settle_dirty, PerPort.set]
  · exact latchPayload_latched s .svp (by simp [State.toSettling, State.svpAbandoned, State.setPower])
  · exact svpAbandoned_released 4 s (by simp [State.toSettling, State.setPower])
  · rw [← hcom]
    exact hcalm (Calm.congr h hcom)

/-! ## ROUSED (R160) -/

/-- The state that has entered ROUSED, before it settles. -/
def State.toRoused (s : State) : State := { s.setPower .roused with pow.relapse := 0 }

theorem inRoused (s : State) : InRoused s s.enterRoused := by
  have he : s.enterRoused = s.toRoused.settle := rfl
  rw [he]
  refine ⟨?_, drainCloses_of (settle_drainCloses rfl) rfl rfl, settle_causesKept s.toRoused, fun h => ?_⟩
  · refine (settle_frame_eq s.toRoused).trans ?_
    rw [settle_dirty (s := s.toRoused) rfl]
    rfl
  · rw [settle_calm (v := s.toRoused) (Calm.congr h rfl)]
    exact ⟨rfl, rfl, rfl⟩

/-! ## RUN (R161, R170) -/

/-- The state that has entered RUN, before a paused burn goes on and it settles. -/
def State.toRun (s : State) : State := { s.setPower .run with quiet.remaining := quietLoad s.prof }

theorem resumeBurn_none (h : ∀ b, v.img.burn = some b → b.paused = false) : v.resumeBurn = v := by
  unfold State.resumeBurn
  split
  · next b hb => simp [h b hb]
  · rfl

theorem resumeBurn_paused {b : Burn} (h : v.img.burn = some b) (hp : b.paused = true) : v.resumeBurn = v.burnOffer b := by
  simp [State.resumeBurn, h, hp]

theorem Claims.OffersJob.settles {b : Burn} {j : Job} (h : OffersJob s v b j) : OffersJob s v.settle b j := by
  simpa [OffersJob] using h

theorem Claims.StartsReads.settles {b : Burn} {act : BurnAct} {off : Nat} (h : StartsReads s v b act off) : StartsReads s v.settle b act off := by
  simpa [StartsReads] using h

theorem resumeBurn_mir (v : State) : v.resumeBurn.mir = v.mir := by simp

theorem inRun (s : State) : InRun s s.enterRun := by
  have he : s.enterRun = s.toRun.resumeBurn.settle := rfl
  have hb : AtBoundary s.toRun s.toRun := ⟨rfl, rfl, rfl, rfl, rfl, rfl, rfl⟩
  rw [he]
  refine ⟨by simp [State.toRun, State.setPower], by simp [State.toRun, State.setPower, quietLoad], by simp [State.toRun, State.setPower],
    by simp [State.toRun, State.setPower], by simp [State.toRun, State.setPower], by simp [State.toRun, State.setPower],
    by simp [State.toRun, State.setPower], ?_, fun hc hn => ?_, fun b hburn hp => ?_⟩
  · refine CausesKept.trans (u := s.toRun.resumeBurn) (as := []) (causesKept_of_eq ?_) (settle_causesKept _) (by simp)
    rw [resumeBurn_mir]
    rfl
  · rw [resumeBurn_none (v := s.toRun) hn, settle_calm (v := s.toRun) (Calm.congr hc rfl)]
    rfl
  · rw [resumeBurn_paused (v := s.toRun) hburn hp]
    refine ⟨fun hh => ?_, fun hh => ?_, fun hh => ?_, fun page more hh => ?_, fun page sum bad hh => ?_⟩
    · have hoffer : s.toRun.burnOffer b = s.toRun.startReading b := by rcases hh with hh | hh <;> simp [State.burnOffer, hh]
      rw [hoffer]
      exact StartsReads.settles (startReading_starts hb b)
    · have hoffer : s.toRun.burnOffer b = s.toRun.offerBurnJob b (.burnBlank b.block) := by rcases hh with hh | hh <;> simp [State.burnOffer, hh]
      rw [hoffer]
      exact OffersJob.settles (offerBurnJob_offers hb b _)
    · have hoffer : s.toRun.burnOffer b = s.toRun.offerBurnJob b (.burnErase b.block) := by simp [State.burnOffer, hh]
      rw [hoffer]
      exact OffersJob.settles (offerBurnJob_offers hb b _)
    · have hoffer : s.toRun.burnOffer b = s.toRun.startFetch b page := by simp [State.burnOffer, hh]
      rw [hoffer]
      exact StartsReads.settles (startFetch_starts hb b page)
    · have hoffer : s.toRun.burnOffer b = s.toRun.startFetch b page := by simp [State.burnOffer, hh]
      rw [hoffer]
      exact StartsReads.settles (startFetch_starts hb b page)

end Entries
end Sys2Proof.Machine

/-! PROOFS. The entry to PF-DRAIN (R76, R97, R162; log 41). -/

namespace Sys2Proof.Machine
open Sys2Proof Sys2Proof.Machine Sys2Proof.Machine.Claims

section Drain

variable {s t w : State} {b : Burn} {r : Running}

/-! ## The burn at PF-DRAIN entry (R97) -/

theorem stopBurn_none (h : w.img.burn = none) : w.stopBurn = w := by simp [State.stopBurn, h]

theorem stopBurn_between (h : w.img.burn = some b) (ha : b.act = .idle ∨ ∃ k ws, b.act = .reading k ws) : w.stopBurn = w.burnRequeue b := by
  rcases ha with ha | ⟨k, ws, ha⟩ <;> simp [State.stopBurn, h, ha]

theorem stopBurn_fetching {k : Nat} {ws : List Word} (h : w.img.burn = some b) (ha : b.act = .fetching k ws) : w.stopBurn = w.awaitAborted b := by
  simp [State.stopBurn, h, ha]

theorem stopBurn_stops (h : w.img.burn = some b) (ha : b.act = .job) (hs : w.flash.current.any (·.job.stopsAtDrain) = true) :
    w.stopBurn = w.deviceFreed.burnRequeue b := by
  simp only [State.stopBurn, h, ha, hs, if_true]
  rfl

theorem stopBurn_awaits (h : w.img.burn = some b) (ha : b.act = .job) (hs : w.flash.current.any (·.job.stopsAtDrain) = false)
    (hc : w.flash.carriesBurn = true) : w.stopBurn = w.awaitAborted b := by
  simp [State.stopBurn, h, ha, hs, hc]

theorem stopBurn_uncarried (h : w.img.burn = some b) (ha : b.act = .job) (hs : w.flash.current.any (·.job.stopsAtDrain) = false)
    (hc : w.flash.carriesBurn = false) : w.stopBurn = w.burnRequeue b := by
  simp [State.stopBurn, h, ha, hs, hc]

/-- All that the stop of a burn can do. -/
theorem stopBurn_cases (w : State) : w.stopBurn = w ∨ ∃ b, w.img.burn = some b ∧
    (w.stopBurn = w.burnRequeue b ∨ w.stopBurn = w.awaitAborted b ∨
      w.stopBurn = w.deviceFreed.burnRequeue b ∧ w.flash.current.any (·.job.stopsAtDrain) = true) := by
  cases h : w.img.burn with
  | none => exact .inl (stopBurn_none h)
  | some b =>
    refine .inr ⟨b, rfl, ?_⟩
    cases ha : b.act with
    | idle => exact .inl (stopBurn_between h (.inl ha))
    | reading k ws => exact .inl (stopBurn_between h (.inr ⟨k, ws, ha⟩))
    | fetching k ws => exact .inr (.inl (stopBurn_fetching h ha))
    | job =>
      cases hs : w.flash.current.any (·.job.stopsAtDrain) with
      | true => exact .inr (.inr ⟨stopBurn_stops h ha hs, rfl⟩)
      | false =>
        cases hc : w.flash.carriesBurn with
        | true => exact .inr (.inl (stopBurn_awaits h ha hs hc))
        | false => exact .inl (stopBurn_uncarried h ha hs hc)

@[simp] theorem stopBurn_kept (w : State) : w.stopBurn.flash.cells = w.flash.cells ∧ w.stopBurn.flash.suspended = w.flash.suspended ∧
    w.stopBurn.flash.portReads = w.flash.portReads ∧ w.stopBurn.flash.journal = w.flash.journal ∧ w.stopBurn.flash.upkeep = w.flash.upkeep ∧
    w.stopBurn.flash.startup = w.flash.startup ∧ w.stopBurn.img.waiting = w.img.waiting ∧ w.stopBurn.img.results = w.img.results := by
  rcases stopBurn_cases w with e | ⟨b, -, e | e | ⟨e, -⟩⟩ <;> rw [e] <;> exact ⟨rfl, rfl, rfl, rfl, rfl, rfl, rfl, rfl⟩

theorem stopBurn_dram (w : State) : w.stopBurn.dram = { w.dram with waiting := w.dram.waiting.set .burn (w.stopBurn.dram.waiting.get .burn) } := by
  rcases stopBurn_cases w with e | ⟨b, -, e | e | ⟨e, -⟩⟩ <;> rw [e]
  · rw [PerSource.set_get]
  · simp [State.burnRequeue]
  · rw [State.awaitAborted, PerSource.set_get]
  · simp [State.burnRequeue, State.deviceFreed]

theorem stopBurn_current (w : State) : w.stopBurn.flash.current = w.flash.current ∨
    w.stopBurn.flash.current = none ∧ w.flash.current.any (·.job.stopsAtDrain) = true := by
  rcases stopBurn_cases w with e | ⟨b, -, e | e | ⟨e, hs⟩⟩ <;> rw [e]
  · exact .inl rfl
  · exact .inl rfl
  · exact .inl rfl
  · exact .inr ⟨rfl, hs⟩

theorem Job.stopsAtDrain_isBurn {j : Job} (h : j.isBurn = false) : j.stopsAtDrain = false := by
  cases j <;> simp_all [Job.isBurn, Job.stopsAtDrain]

theorem Job.stopsAtDrain_isErase {j : Job} (h : j.isErase = true) : j.stopsAtDrain = false := by
  cases j <;> simp_all [Job.isErase, Job.stopsAtDrain]

theorem abort_job (r : Running) : r.abort.job = r.job := by
  unfold Running.abort
  split <;> rfl

theorem abort_erase (h : r.job.isErase = true) : r.abort = { r with abortReq := true } := by simp [Running.abort, h]

theorem abort_other (h : r.job.isErase = false) : r.abort = r := by simp [Running.abort, h]

/-! ## The entry -/

/-- The first report of an entry to PF-DRAIN, with the payload writes in carry latched. -/
def State.powerfailReported (s : State) : State := ((s.latchPayload .svp).latchPayload .mnp).offerPowerfail

/-- The reports of an entry to PF-DRAIN: POWERFAIL, then every open record abandoned. -/
def State.drainReported (s : State) : State := (s.powerfailReported.abandonPort .svp 5).abandonPort .mnp 5

/-- The state that has entered PF-DRAIN, before its burn stops. -/
def State.toDrain (s : State) : State :=
  State.abortErase { (s.drainReported.raise .power).setPower .pfDrain with pow.entryPending := false, quiet.remaining := none }

theorem enterPfDrain_eq (s : State) : s.enterPfDrain = s.toDrain.stopBurn.settle := by
  simp only [State.enterPfDrain, State.toDrain, State.drainReported, State.powerfailReported, causePfDrain]

theorem offerPowerfail_offered (s : State) :
    Offered s s.offerPowerfail (partRecord 0xF6#8 true s.stamp (s.stg.rings.toList.map (fun r => numWord r.staged))) :=
  offerNow_offered _ _ _ s

theorem powerfailReported_offered (s : State) :
    Offered s s.powerfailReported (partRecord 0xF6#8 true s.stamp (s.stg.rings.toList.map (fun r => numWord r.staged))) := by
  have h := offerPowerfail_offered ((s.latchPayload .svp).latchPayload .mnp)
  have hstg : ((s.latchPayload .svp).latchPayload .mnp).stg = s.stg := by simp
  have hstamp : ((s.latchPayload .svp).latchPayload .mnp).stamp = s.stamp := by simp [State.stamp]
  rw [hstg, hstamp] at h
  exact h.before (bs := []) (congrArg Staging.outbox hstg) (congrArg Staging.lost hstg) (causesKept_of_eq (by simp)) (by simp)

@[simp] theorem powerfailReported_kept (s : State) : s.powerfailReported.pending = s.pending ∧ s.powerfailReported.ctx = s.ctx ∧
    s.powerfailReported.com = s.com ∧ s.powerfailReported.flash = s.flash ∧ s.powerfailReported.img = s.img ∧ s.powerfailReported.lock = s.lock ∧
    s.powerfailReported.dram = s.dram ∧ s.powerfailReported.pow = s.pow ∧ s.powerfailReported.con = s.con ∧
    s.powerfailReported.quiet = s.quiet ∧ s.powerfailReported.su = s.su ∧ s.powerfailReported.prof = s.prof ∧ s.powerfailReported.free = s.free ∧
    s.powerfailReported.stg.rings = s.stg.rings ∧ s.powerfailReported.stg.queue = s.stg.queue ∧
    s.powerfailReported.stg.writing = s.stg.writing ∧ s.powerfailReported.stg.last = s.stg.last ∧ s.powerfailReported.mir.gen = s.mir.gen ∧
    s.powerfailReported.mir.last = s.mir.last ∧ s.powerfailReported.mir.write = s.mir.write := by
  rw [State.powerfailReported, State.offerPowerfail, offerNow_eq]
  simp

theorem powerfailReported_ports (s : State) : s.powerfailReported.ports = ((s.latchPayload .svp).latchPayload .mnp).ports := by
  simp [State.powerfailReported]

theorem drainReported_offeredAll (s : State) : OfferedAll s s.drainReported
    (partRecord 0xF6#8 true s.stamp (s.stg.rings.toList.map (fun r => numWord r.staged)) ::
      (abandonments s .svp 5 ++ abandonments s .mnp 5)) [] := by
  have hpow := offeredAll_one (powerfailReported_offered s)
  have hsvp := abandonPort_offeredAll .svp 5 s.powerfailReported
  have hmnp := abandonPort_offeredAll .mnp 5 (s.powerfailReported.abandonPort .svp 5)
  rw [abandonments_congr (s := s) (fun d => by simp [State.context]) (by simp [State.stamp])] at hsvp
  rw [abandonments_congr (s := s) (fun d => by rw [abandonPort_context_other (by decide)]; simp [State.context]) (by simp [State.stamp])] at hmnp
  have h := (hpow.trans hsvp (by simp) (cs := []) (by simp)).trans hmnp (by simp) (cs := []) (by simp)
  rw [List.append_assoc] at h
  exact h

theorem openCount_both (s : State) (d : ClassId) : openCount s [.svp, .mnp] d = openCount s [.svp] d + openCount s [.mnp] d := by
  unfold openCount
  rw [← List.length_append, ← List.filter_append]
  rfl

theorem drainReported_released (s : State) (h : t.stg.rings = s.drainReported.stg.rings) : Released s t [.svp, .mnp] := by
  intro c
  have hm : openCount (s.powerfailReported.abandonPort .svp 5) [.mnp] c = openCount s [.mnp] c :=
    openCount_congr (fun q hq => by rw [List.mem_singleton.mp hq, abandonPort_context_other (by decide)]; simp [State.context])
  have hv : openCount s.powerfailReported [.svp] c = openCount s [.svp] c := openCount_congr (fun q _ => by simp [State.context])
  rw [h, State.drainReported, abandonPort_rings, abandonPort_rings, hm, hv]
  simp only [powerfailReported_kept, Nat.sub_sub, ← openCount_both]
  rfl

theorem drainReported_ctx (s : State) : s.drainReported.ctx = ⟨Four.const none, Four.const none⟩ := by
  simp [State.drainReported, abandonPort_ctx]
  rfl

/-- What the reports of an entry to PF-DRAIN leave alone. -/
@[simp] theorem drainReported_kept (s : State) : s.drainReported.pending = s.pending ∧ s.drainReported.com = s.com ∧
    s.drainReported.flash = s.flash ∧ s.drainReported.img = s.img ∧ s.drainReported.lock = s.lock ∧ s.drainReported.dram = s.dram ∧
    s.drainReported.pow = s.pow ∧ s.drainReported.con = s.con ∧ s.drainReported.quiet = s.quiet ∧ s.drainReported.su = s.su ∧
    s.drainReported.prof = s.prof ∧ s.drainReported.free = s.free ∧ s.drainReported.stg.queue = s.stg.queue ∧
    s.drainReported.stg.writing = s.stg.writing ∧ s.drainReported.stg.last = s.stg.last ∧ s.drainReported.mir.gen = s.mir.gen ∧
    s.drainReported.mir.last = s.mir.last ∧ s.drainReported.mir.write = s.mir.write := by
  simp [State.drainReported]

theorem toDrain_img (s : State) : s.toDrain.img = s.img := by simp [State.toDrain, State.setPower]

theorem toDrain_flash (s : State) : s.toDrain.flash =
    { s.flash with current := s.flash.current.map Running.abort, suspended := s.flash.suspended.map Running.abort } := by
  simp [State.toDrain, State.setPower, State.abortErase]

theorem toDrain_dram (s : State) : s.toDrain.dram = s.dram := by simp [State.toDrain, State.setPower]

/-- All that an entry to PF-DRAIN writes. -/
theorem enterPfDrain_frame_eq (s : State) : s.enterPfDrain = { s with
    ports := s.enterPfDrain.ports
    ctx := ⟨Four.const none, Four.const none⟩
    stg := { s.stg with rings := s.enterPfDrain.stg.rings, outbox := s.enterPfDrain.stg.outbox, lost := s.enterPfDrain.stg.lost }
    com := s.enterPfDrain.com
    flash := { s.flash with current := s.enterPfDrain.flash.current, suspended := s.enterPfDrain.flash.suspended, burn := s.enterPfDrain.flash.burn }
    img := { s.img with slots := s.enterPfDrain.img.slots, queue := s.enterPfDrain.img.queue, burn := s.enterPfDrain.img.burn }
    dram := { s.dram with waiting := s.dram.waiting.set .burn (s.enterPfDrain.dram.waiting.get .burn) }
    pow := { s.pow with state := .pfDrain, entryPending := false }
    quiet := { s.quiet with remaining := none }
    mir := { s.mir with dirty := true, attention := s.enterPfDrain.mir.attention } } := by
  have hdirty : s.toDrain.stopBurn.settle.mir.dirty = true := settle_dirty (by simp [State.toDrain, State.setPower])
  have hdram : s.toDrain.stopBurn.settle.dram = { s.dram with waiting := s.dram.waiting.set .burn (s.toDrain.stopBurn.settle.dram.waiting.get .burn) } := by
    have h := stopBurn_dram s.toDrain
    rw [toDrain_dram] at h
    simpa using h
  rw [enterPfDrain_eq]
  refine State.eq_of_fields ?_ rfl ?_ (Staging.eq_of_fields rfl ?_ ?_ ?_ rfl rfl) rfl (Flash.eq_of_fields ?_ rfl rfl ?_ ?_ ?_ rfl ?_)
    (Image.eq_of_fields rfl ?_ rfl rfl ?_) ?_ hdram ?_ ?_ ?_ (Mirror.eq_of_fields hdirty ?_ ?_ ?_ rfl) ?_ ?_ ?_
  all_goals simp [State.toDrain, State.setPower, State.abortErase, drainReported_ctx]

/-! ## What becomes of the burn and of an erase (R76, R97; log 41) -/

theorem toDrain_current (hr : s.flash.current = some r) : s.toDrain.flash.current = some r.abort := by simp [toDrain_flash, hr]

theorem toDrain_suspended (hr : s.flash.suspended = some r) : s.toDrain.flash.suspended = some r.abort := by simp [toDrain_flash, hr]

theorem toDrain_stops (s : State) : s.toDrain.flash.current.any (·.job.stopsAtDrain) = s.flash.current.any (·.job.stopsAtDrain) := by
  cases h : s.flash.current <;> simp [toDrain_flash, h, abort_job]

theorem toDrain_carries (s : State) : s.toDrain.flash.carriesBurn = s.flash.carriesBurn := by
  cases h : s.flash.current <;> cases h' : s.flash.suspended <;> simp [Flash.carriesBurn, toDrain_flash, h, h', abort_job]

theorem enterPfDrain_side (s : State) : s.enterPfDrain.img = s.toDrain.stopBurn.img ∧ s.enterPfDrain.flash = s.toDrain.stopBurn.flash ∧
    s.enterPfDrain.dram = s.toDrain.stopBurn.dram := by
  rw [enterPfDrain_eq]
  simp

/-- The burn goes back to the queue (R97). -/
theorem drain_requeues (h : s.toDrain.stopBurn = w.burnRequeue b) (hw : w.img = s.img) : Requeued s s.enterPfDrain b := by
  obtain ⟨hi, hf, hd⟩ := enterPfDrain_side s
  have hr := burnRequeue_requeued b hw
  unfold Requeued
  rw [hi, hf, hd, h]
  exact hr

/-- The burn is marked to go back when its job or fetch ends (R97). -/
theorem drain_marks (h : s.toDrain.stopBurn = s.toDrain.awaitAborted b) :
    s.enterPfDrain.img = { s.img with burn := some { b with aborting := true } } ∧ s.enterPfDrain.flash.burn = s.flash.burn := by
  obtain ⟨hi, hf, -⟩ := enterPfDrain_side s
  rw [hi, hf, h, State.awaitAborted, toDrain_img, toDrain_flash]
  exact ⟨rfl, rfl⟩

/-- A job at the device when PF-DRAIN begins: a check goes back at once, an erase and a program when they end. -/
theorem drain_job (hb : s.img.burn = some b) (ha : b.act = .job) (hr : s.flash.current = some r) :
    (r.job = .burnBlank b.block ∨ (∃ page ws start, r.job = .burnVerify b.block page ws start) →
      Requeued s s.enterPfDrain b ∧ s.enterPfDrain.flash.current = none) ∧
    (r.job = .burnErase b.block ∨ (∃ page ws, r.job = .burnProgram b.block page ws) →
      s.enterPfDrain.img = { s.img with burn := some { b with aborting := true } } ∧ s.enterPfDrain.flash.burn = s.flash.burn) := by
  have hb' : s.toDrain.img.burn = some b := by rw [toDrain_img]; exact hb
  have hstops := toDrain_stops s
  have hcarries := toDrain_carries s
  refine ⟨fun hj => ?_, fun hj => ?_⟩
  · have hs : s.toDrain.flash.current.any (·.job.stopsAtDrain) = true := by
      rw [hstops, hr]
      rcases hj with hj | ⟨page, ws, start, hj⟩ <;> simp [hj, Job.stopsAtDrain]
    have hstop := stopBurn_stops hb' ha hs
    refine ⟨drain_requeues hstop (toDrain_img s), ?_⟩
    rw [(enterPfDrain_side s).2.1, hstop]
    rfl
  · have hs : s.toDrain.flash.current.any (·.job.stopsAtDrain) = false := by
      rw [hstops, hr]
      rcases hj with hj | ⟨page, ws, hj⟩ <;> simp [hj, Job.stopsAtDrain]
    have hc : s.toDrain.flash.carriesBurn = true := by
      rw [hcarries]
      rcases hj with hj | ⟨page, ws, hj⟩ <;> simp [Flash.carriesBurn, hr, hj, Job.isBurn]
    exact drain_marks (stopBurn_awaits hb' ha hs hc)

theorem any_false_of {o : Option Running} {f : Job → Bool} (h : ∀ r, o = some r → f r.job = false) : o.any (fun r => f r.job) = false := by
  cases o with
  | none => rfl
  | some r => exact h r rfl

/-- No job of the burn is in the unit: it goes back at once. -/
theorem drain_uncarried (hb : s.img.burn = some b) (ha : b.act = .job)
    (hn : ∀ r, s.flash.current = some r ∨ s.flash.suspended = some r → r.job.isBurn = false) : Requeued s s.enterPfDrain b := by
  have hs : s.toDrain.flash.current.any (·.job.stopsAtDrain) = false :=
    (toDrain_stops s).trans (any_false_of (fun r hr => Job.stopsAtDrain_isBurn (hn r (.inl hr))))
  have hc : s.toDrain.flash.carriesBurn = false := by
    rw [toDrain_carries, Flash.carriesBurn, any_false_of (fun r hr => hn r (.inl hr)), any_false_of (fun r hr => hn r (.inr hr))]
    rfl
  exact drain_requeues (stopBurn_uncarried (by rw [toDrain_img]; exact hb) ha hs hc) (toDrain_img s)

/-- The burn's erase is suspended behind a job that is no burn's: it is marked. -/
theorem drain_suspended (hb : s.img.burn = some b) (ha : b.act = .job) (hr : s.flash.suspended = some r) (hj : r.job = .burnErase b.block)
    (hn : ∀ x, s.flash.current = some x → x.job.isBurn = false) :
    s.enterPfDrain.img = { s.img with burn := some { b with aborting := true } } ∧ s.enterPfDrain.flash.burn = s.flash.burn := by
  have hs : s.toDrain.flash.current.any (·.job.stopsAtDrain) = false :=
    (toDrain_stops s).trans (any_false_of (fun r hr => Job.stopsAtDrain_isBurn (hn r hr)))
  have hc : s.toDrain.flash.carriesBurn = true := by
    rw [toDrain_carries]
    simp [Flash.carriesBurn, hr, hj, Job.isBurn]
  exact drain_marks (stopBurn_awaits (by rw [toDrain_img]; exact hb) ha hs hc)

theorem drain_erase (hr : s.flash.current = some r) (he : r.job.isErase = true) : s.enterPfDrain.flash.current = some { r with abortReq := true } := by
  rw [(enterPfDrain_side s).2.1, ← abort_erase he]
  rcases stopBurn_current s.toDrain with h | ⟨-, h⟩
  · rw [h, toDrain_current hr]
  · rw [toDrain_stops, hr] at h
    simp [Job.stopsAtDrain_isErase he] at h

theorem drain_reports (s : State) : ∃ more raised, Stalls s more raised ∧ (Calm s → s.enterPfDrain.com = s.com ∧ more = []) ∧
    OfferedAll s s.enterPfDrain (partRecord 0xF6#8 true s.stamp (s.stg.rings.toList.map (fun r => BitVec.ofNat 32 r.staged)) ::
      (abandonments s .svp 5 ++ abandonments s .mnp 5 ++ more)) (.power :: raised) := by
  have hcom : s.toDrain.stopBurn.com = s.com := by simp [State.toDrain, State.setPower]
  have hstamp : s.toDrain.stopBurn.stamp = s.stamp := by simp [State.toDrain, State.setPower, State.stamp]
  have hraise : CausesKept s.drainReported s.toDrain.stopBurn [.power] :=
    (raise_causesKept .power s.drainReported).trans (bs := []) (causesKept_of_eq (by simp [State.toDrain, State.setPower])) (by simp)
  have hall := (drainReported_offeredAll s).after (u := s.toDrain.stopBurn) (cs := [.power]) (by simp [State.toDrain, State.setPower])
    (by simp [State.toDrain, State.setPower]) hraise (by simp) (by simp)
  obtain ⟨more, raised, hst, hoff, hcalm, hlost⟩ := settle_reports s.toDrain.stopBurn
  rw [← enterPfDrain_eq] at hoff hcalm
  refine ⟨more, raised, stalls_of hst hcom hstamp, fun h => ?_, ?_⟩
  · rw [← hcom]
    exact hcalm (Calm.congr h hcom)
  · have h := hall.trans hoff hlost (cs := .power :: raised) (by simp)
    exact h

theorem inDrain (s : State) : InDrain s s.enterPfDrain := by
  obtain ⟨hi, hf, hd⟩ := enterPfDrain_side s
  have hqueue : s.toDrain.stopBurn.stg.queue = s.stg.queue := by simp [State.toDrain, State.setPower]
  have hcom : s.toDrain.stopBurn.com = s.com := by simp [State.toDrain, State.setPower]
  have hpow : s.toDrain.stopBurn.pow.state = .pfDrain := by simp [State.toDrain, State.setPower]
  refine ⟨enterPfDrain_frame_eq s, ?_, ?_, ?_, ?_, drain_reports s, fun r hr he => drain_erase hr he, fun r hr he => ?_, fun hb => ?_, fun b hb => ?_⟩
  · rw [enterPfDrain_eq, settle_causesKept _ .power (by decide)]
    simp [State.toDrain, State.setPower]
  · exact latchPayload_latched_both s (by rw [enterPfDrain_eq]; simp [State.toDrain, State.setPower, State.drainReported, powerfailReported_ports])
  · exact drainReported_released s (by rw [enterPfDrain_eq]; simp [State.toDrain, State.setPower])
  · rw [enterPfDrain_eq]
    exact drainCloses_of (settle_drainCloses (by rw [hpow]; rfl)) hcom hqueue
  · rw [hf, (stopBurn_kept s.toDrain).2.1, toDrain_suspended hr, abort_erase he]
  · have hn : s.toDrain.stopBurn = s.toDrain := stopBurn_none (by rw [toDrain_img]; exact hb)
    rw [hi, hf, hd, hn, toDrain_img, toDrain_flash, toDrain_dram]
    exact ⟨rfl, rfl, rfl, fun r hr he => by simp [hr, abort_other he]⟩
  · have hb' : s.toDrain.img.burn = some b := by rw [toDrain_img]; exact hb
    exact ⟨fun ha => drain_requeues (stopBurn_between hb' ha) (toDrain_img s), fun k ws ha => drain_marks (stopBurn_fetching hb' ha),
      fun ha hn => drain_uncarried hb ha hn, fun r ha hr hj hn => drain_suspended hb ha hr hj hn, fun r ha hr => drain_job hb ha hr⟩

end Drain
end Sys2Proof.Machine

/-! PROOFS. LPREQ and PFW (R152, R153, R157, R159, R161 to R164). -/

namespace Sys2Proof.Machine
open Sys2Proof Sys2Proof.Machine Sys2Proof.Machine.Claims

section Levels

variable {s : State} {why : EntryWhy}

/-! ## A pending entry cancelled (R157) -/

theorem offerDoze_dozed (direction cause : Nat) (s : State) : Dozed s (s.offerDoze direction cause) direction cause :=
  ⟨offerNow_eq _ _ _ s, offerNow_offered _ _ _ s⟩

theorem cancelEntry_none (h : s.pow.entryPending = false) (cause : Nat) : s.cancelEntry cause = s := by simp [State.cancelEntry, h]

theorem cancelEntry_pending (h : s.pow.entryPending = true) (cause : Nat) :
    Dozed { s with pow := { s.pow with entryPending := false } } (s.cancelEntry cause) 2 cause := by
  rw [State.cancelEntry, if_pos h]
  exact offerDoze_dozed 2 cause _

/-! ## LPREQ (R152, R153, R159) -/

theorem lpreqAsserted_eq (h : s.pow.lpreq = false) : exec .lpreqAsserted s = .next (if s.pow.state = .run then
    ({ s with pow := { s.pow with lpreq := true } } : State).enterSettling else { s with pow := { s.pow with lpreq := true } }) := by
  simp only [exec, execLpreqAsserted, h]
  rfl

/-- The part once LPREQ is released. -/
def State.unrequested (s : State) : State := { s with pow := { s.pow with lpreq := false } }

theorem lpreqReleased_eq (h : s.pow.lpreq = true) : exec .lpreqReleased s = .next (if s.pow.state = .settling ∨ s.pow.state = .roused then
      if s.dram.entryReq = some .doze then { s.unrequested with pow := { s.unrequested.pow with heldEvents := s.pow.heldEvents ++ [.lpreqReleased] } }
      else (s.unrequested.cancelEntry 4).enterRun
    else s.unrequested.wake 4) := by
  simp only [exec, execLpreqReleased, h]
  rfl

/-- Settles O50. -/
theorem lpreqSettlesAndReturnsToRun : Obligations.LpreqSettlesAndReturnsToRun := by
  unfold Obligations.LpreqSettlesAndReturnsToRun
  intro s
  refine ⟨?_, ?_⟩
  · intro h u
    rw [lpreqAsserted_eq h]
    exact ⟨fun hp => ⟨_, congrArg Host.Outcome.next (if_pos hp), inSettling u⟩, fun hp => congrArg Host.Outcome.next (if_neg hp)⟩
  · intro h u
    rw [lpreqReleased_eq h]
    refine ⟨fun hp => ?_, fun hp => ?_, fun h1 h2 h3 => ?_⟩
    · rw [if_pos hp]
      refine ⟨fun he => congrArg Host.Outcome.next (if_pos he), fun he hn => ?_, fun he hn => ?_⟩
      · rw [if_neg he, cancelEntry_none (s := s.unrequested) hn]
        exact ⟨_, rfl, inRun u⟩
      · rw [if_neg he]
        exact ⟨_, _, cancelEntry_pending (s := s.unrequested) hn 4, rfl, inRun _⟩
    · rw [if_neg (by simp [hp]), State.wake_doze (s := s.unrequested) 4 hp]
      rfl
    · rw [if_neg (by simp [h1, h2]), State.wake_awake (s := s.unrequested) 4 h3]
      rfl

/-! ## PFW (R152, R157, R162 to R164) -/

/-- The part once PFW is asserted, and once it is released. -/
def State.failing (s : State) : State := { s with pow := { s.pow with pfw := true } }
def State.unfailing (s : State) : State := { s with pow := { s.pow with pfw := false } }

theorem pfwAsserted_eq (h : s.pow.pfw = false) : exec .pfwAsserted s = .next (if s.pow.state.drainable = true then
      if s.dram.entryReq = some .doze then { s.failing with pow := { s.failing.pow with heldEvents := s.pow.heldEvents ++ [.pfwAsserted] } }
      else (s.failing.cancelEntry 5).enterPfDrain
    else s.failing.wake 5) := by
  simp only [exec, execPfwAsserted, h]
  rfl

theorem drainable_iff (p : PowerState) : p.drainable = true ↔ p = .run ∨ p = .settling ∨ p = .roused := by
  cases p <;> simp [PowerState.drainable]

theorem pfwReleased_drain (h : s.pow.pfw = true) (hp : s.pow.state = .pfDrain) : exec .pfwReleased s = .next (if s.dram.entryReq.isSome = true then
    { s.unfailing with pow := { s.unfailing.pow with heldExit := true } } else s.unfailing.resetSched.enterByLpreq) := by
  simp [exec, execPfwReleased, h, hp, State.unfailing]

theorem pfwReleased_halt (h : s.pow.pfw = true) (hp : s.pow.state = .pfHalt) :
    exec .pfwReleased s = .next { s.unfailing with dram := { s.dram with exitReq := true } } := by
  simp only [exec, execPfwReleased, h, hp]
  simp [State.unfailing, hp]

theorem pfwReleased_other (h : s.pow.pfw = true) (h1 : s.pow.state ≠ .pfDrain) (h2 : s.pow.state ≠ .pfHalt) :
    exec .pfwReleased s = .next s.unfailing := by
  cases hp : s.pow.state <;> simp_all [exec, execPfwReleased, State.unfailing]

theorem enterByLpreq_run (h : s.pow.lpreq = false) : s.enterByLpreq = s.enterRun := by simp [State.enterByLpreq, h]

theorem enterByLpreq_settling (h : s.pow.lpreq = true) : s.enterByLpreq = s.enterSettling := by simp [State.enterByLpreq, h]

/-! ## Self-refresh entry asked for (R147, R163) -/

theorem requestEntry_asked (hq : s.stg.queue = []) (why : EntryWhy) : EntryAsked s (s.requestEntry why) why := by
  refine ⟨fun hg hr => ?_, fun hn => ?_⟩
  · have h := beginEntry_goes (s := { s with dram := { s.dram with entryReq := some why } }) (by simp) hq hg hr
    have ht : s.requestEntry why = _ := h
    rw [ht]
    exact ⟨closedRows_allClosed s.prof, rfl⟩
  · have hno : (({ s with dram := { s.dram with entryReq := some why } } : State).entryDue && s.dram.grant.isNone && s.dram.refresh == .none) = false := by
      rcases hn with hg | hr
      · simp [Option.isNone_iff_eq_none, hg]
      · simp [hr]
    exact if_neg (by rw [Bool.not_eq_true]; exact hno)

theorem noneHeld_iff (c : Contacts) : c.noneHeld = true ↔ ∀ i, c.slots.get i = none := by
  rw [Contacts.noneHeld, List.all_eq_true]
  refine ⟨fun h i => ?_, fun h x hx => ?_⟩
  · simpa using h _ ((Four.mem_toList c.slots _).mpr ⟨i, rfl⟩)
  · obtain ⟨i, rfl⟩ := (Four.mem_toList c.slots x).mp hx
    simp [h i]

theorem free_iff (f : Flash) : f.free = true ↔ f.current = none ∧ f.suspended = none := by simp [Flash.free]

theorem drainFinished_iff (s : State) : s.drainFinished = true ↔ ((∀ c, s.com.queues.get c = []) ∧ s.stg.queue = [] ∧ s.com.held = none ∧
    s.com.closed = [] ∧ s.com.inflight = none) ∨ s.com.stalled = true := by
  simp only [State.drainFinished, Bool.or_eq_true, Bool.and_eq_true, drained_iff, List.isEmpty_iff, Option.isNone_iff_eq_none, and_assoc]

theorem drainEnds_iff (s : State) : s.drainEnds = true ↔ Drained s := by
  simp only [State.drainEnds, Drained, Bool.and_eq_true, Bool.or_eq_true, beq_iff_eq, List.isEmpty_iff, drainFinished_iff, noneHeld_iff, free_iff,
    List.all_eq_true]
  constructor
  · rintro ⟨⟨⟨⟨⟨⟨⟨hp, hf⟩, ho⟩, hq⟩, hc⟩, h1, h2⟩, h3⟩, h4⟩
    exact ⟨hp, hf.imp_left fun ⟨a, _, b⟩ => ⟨a, b⟩, ho, hq, hc, h1, h2, h3, h4⟩
  · rintro ⟨hp, hf, ho, hq, hc, h1, h2, h3, h4⟩
    exact ⟨⟨⟨⟨⟨⟨⟨hp, hf.imp_left fun ⟨a, b⟩ => ⟨a, hq, b⟩⟩, ho⟩, hq⟩, hc⟩, h1, h2⟩, h3⟩, h4⟩

theorem drainEnd_eq (h : Awake s) : exec .drainEnd s = .next (if s.drainEnds = true then s.requestEntry .halt else s) := by
  simp only [exec, execDrainEnd, working_awake h, Bool.true_and]

/-- Settles O51. -/
theorem pfwDrainsHaltsAndReturns : Obligations.PfwDrainsHaltsAndReturns := by
  unfold Obligations.PfwDrainsHaltsAndReturns
  intro s
  refine ⟨?_, ?_, fun ha => ⟨fun hd => ?_, fun hd => ?_⟩⟩
  · intro h u
    rw [pfwAsserted_eq h]
    refine ⟨fun hp he => ⟨fun hn => ?_, fun hn => ?_⟩, fun hp he => ?_, fun hp => ?_, fun hp => ?_⟩
    · rw [if_pos ((drainable_iff _).mpr hp), if_neg (by simp [he]), cancelEntry_none (s := s.failing) hn]
      exact ⟨_, rfl, inDrain u⟩
    · rw [if_pos ((drainable_iff _).mpr hp), if_neg (by simp [he])]
      exact ⟨_, _, cancelEntry_pending (s := s.failing) hn 5, rfl, inDrain _⟩
    · rw [if_pos ((drainable_iff _).mpr hp), if_pos he]
      rfl
    · rw [if_neg (by simp [hp, PowerState.drainable]), State.wake_doze (s := s.failing) 5 hp]
      rfl
    · have hnot : ¬ s.pow.state.drainable = true := by rcases hp with hp | hp | hp <;> simp [hp, PowerState.drainable]
      have hdoze : s.pow.state ≠ .doze := by rcases hp with hp | hp | hp <;> simp [hp]
      rw [if_neg hnot, State.wake_awake (s := s.failing) 5 hdoze]
      rfl
  · intro h u round
    refine ⟨fun hp he hl => ?_, fun hp he hl => ?_, fun hp he => ?_, fun hp => pfwReleased_halt h hp, fun h1 h2 => pfwReleased_other h h1 h2⟩
    · rw [pfwReleased_drain h hp, if_neg (by simp [he]), enterByLpreq_run (s := s.unfailing.resetSched) hl]
      exact ⟨_, rfl, inRun round⟩
    · rw [pfwReleased_drain h hp, if_neg (by simp [he]), enterByLpreq_settling (s := s.unfailing.resetSched) hl]
      exact ⟨_, rfl, inSettling round⟩
    · rw [pfwReleased_drain h hp, if_pos (by simp [he])]
      rfl
  · rw [drainEnd_eq ha, if_pos ((drainEnds_iff s).mpr hd)]
    exact ⟨_, rfl, requestEntry_asked hd.2.2.2.1 .halt⟩
  · rw [drainEnd_eq ha, if_neg (mt (drainEnds_iff s).mp hd)]

end Levels
end Sys2Proof.Machine

/-! PROOFS. The end of the sleep (R148, R158, R159, R164). -/

namespace Sys2Proof.Machine
open Sys2Proof Sys2Proof.Machine Sys2Proof.Machine.Claims

section Sleep

variable {s : State}

/-! ## What passing time leaves (log 3) -/

@[simp] theorem pass_pow (n : Nat) (s : State) : (s.pass n).pow.state = s.pow.state ∧ (s.pass n).pow.lpreq = s.pow.lpreq ∧
    (s.pass n).pow.pfw = s.pow.pfw ∧ (s.pass n).pow.wakeCause = s.pow.wakeCause ∧ (s.pass n).pow.heldEvents = s.pow.heldEvents := by
  unfold State.pass
  split <;> simp

theorem pass_prof (n : Nat) (s : State) : (s.pass n).prof = s.prof := by simp

theorem pass_dram (n : Nat) (s : State) : (s.pass n).dram = { s.dram with residency := (s.pass n).dram.residency } := by
  unfold State.pass
  split <;> rfl

/-! ## Self-refresh exit (R148, R159, R164) -/

/-- The part once it has left DOZE, its record offered. -/
def State.dozeLeft (s : State) : State :=
  State.offerDoze 2 (s.pow.wakeCause.getD 0) { s with pow := { s.pow with coarse := false, wakeTimer := none, wakeCause := none } }

@[simp] theorem dozeLeft_pow (s : State) : s.dozeLeft.pow = { s.pow with coarse := false, wakeTimer := none, wakeCause := none } := by
  simp [State.dozeLeft]

theorem leaveDoze_eq (s : State) : s.leaveDoze =
    if s.pow.pfw = true then s.dozeLeft.enterPfDrain else if s.pow.lpreq = true then s.dozeLeft.enterRoused else s.dozeLeft.enterRun := by
  have h : s.leaveDoze = if s.dozeLeft.pow.pfw = true then s.dozeLeft.enterPfDrain
      else if s.dozeLeft.pow.lpreq = true then s.dozeLeft.enterRoused else s.dozeLeft.enterRun := rfl
  rw [h, dozeLeft_pow]

/-- The part once it has left PF-HALT, on its main clock. -/
def State.onClock (s : State) : State := { s with pow := { s.pow with coarse := false } }

theorem leavePfHalt_eq (s : State) : s.leavePfHalt =
    if s.pow.pfw = true then s.onClock.enterPfDrain else s.onClock.resetSched.enterByLpreq := rfl

theorem selfRefreshExit_waits (h : s.dram.exitReq = false) : exec .selfRefreshExit s = .next s :=
  congrArg Host.Outcome.next (if_neg (by simp [h]))

/-- The DRAM usable again after its residency. -/
def State.rewoken (s : State) : State := (s.pass (1 - s.dram.residency)).wakeDram

theorem rewoken_pow (s : State) : s.rewoken.pow = (s.pass (1 - s.dram.residency)).pow := rfl

theorem selfRefreshExit_goes (hsup : s.su.supply = .running) (hm : s.dram.mode = .selfRefresh) (h : s.dram.exitReq = true) :
    exec .selfRefreshExit s = .next (match s.pow.state with
      | .starting => s.rewoken.beginMount true
      | .doze => s.rewoken.leaveDoze
      | .pfHalt => s.rewoken.leavePfHalt
      | _ => s.rewoken) := by
  have hp : s.rewoken.pow.state = s.pow.state := (pass_pow _ s).1
  rw [← hp]
  exact congrArg Host.Outcome.next (if_pos (by simp [hsup, hm, h]))

theorem selfRefreshExit_doze (hsup : s.su.supply = .running) (hm : s.dram.mode = .selfRefresh) (h : s.dram.exitReq = true)
    (hp : s.pow.state = .doze) : exec .selfRefreshExit s = .next s.rewoken.leaveDoze := by
  rw [selfRefreshExit_goes hsup hm h, hp]

theorem selfRefreshExit_halt (hsup : s.su.supply = .running) (hm : s.dram.mode = .selfRefresh) (h : s.dram.exitReq = true)
    (hp : s.pow.state = .pfHalt) : exec .selfRefreshExit s = .next s.rewoken.leavePfHalt := by
  rw [selfRefreshExit_goes hsup hm h, hp]

theorem wakeTimerExpiry_eq {x : Nat} (hp : s.pow.state = .doze) (hx : s.pow.wakeTimer = some x) :
    exec .wakeTimerExpiry s = .next ((s.pass (s.prof.wakeInterval * 1000 - x)).wake 3) := by
  simp only [exec, execWakeTimerExpiry, hp, hx, if_true]

/-- Settles O53. -/
theorem sleepEndsByTheLevels : Obligations.SleepEndsByTheLevels := by
  unfold Obligations.SleepEndsByTheLevels
  intro s
  refine ⟨fun x hp hx => ⟨_, rfl, ?_⟩, fun hsup hm => ⟨selfRefreshExit_waits, fun he => ?_⟩⟩
  · obtain ⟨hstate, -, -, hcause, -⟩ := pass_pow (s.prof.wakeInterval * 1000 - x) s
    rw [wakeTimerExpiry_eq hp hx, State.wake_doze 3 (hstate.trans hp), hcause]
  · intro u v w
    obtain ⟨-, hlpreq, hpfw, hcause, -⟩ := pass_pow (1 - s.dram.residency) s
    have hv : ({ s.rewoken with pow := { s.rewoken.pow with coarse := false, wakeTimer := none, wakeCause := none } } : State) = v := rfl
    have hw : s.rewoken.onClock = w := rfl
    have hprof : w.prof = s.prof := (pass_prof (1 - s.dram.residency) s :)
    have hround : w.resetSched = { w with com := { w.com with sched := startOfRound s.prof } } :=
      congrArg (fun p => ({ w with com := { w.com with sched := startOfRound p } } : State)) hprof
    refine ⟨fun hp => ?_, fun hp => ?_⟩
    · rw [selfRefreshExit_doze hsup hm he hp, leaveDoze_eq, rewoken_pow, hpfw, hlpreq]
      refine ⟨s.rewoken.dozeLeft, _, hcause ▸ offerDoze_dozed 2 (u.pow.wakeCause.getD 0) v, rfl, fun h => ?_, fun h hl => ?_, fun h hl => ?_⟩
      · rw [if_pos h]
        exact inDrain _
      · rw [if_neg (by simp [h]), if_pos hl]
        exact inRoused _
      · rw [if_neg (by simp [h]), if_neg (by simp [hl])]
        exact inRun _
    · rw [selfRefreshExit_halt hsup hm he hp, leavePfHalt_eq, rewoken_pow, hpfw, hw]
      refine ⟨_, rfl, fun h => ?_, fun h hl => ?_, fun h hl => ?_⟩
      · rw [if_pos h]
        exact inDrain w
      · rw [if_neg (by simp [h]), enterByLpreq_settling (s := w.resetSched) (hlpreq.trans hl), hround]
        exact inSettling _
      · rw [if_neg (by simp [h]), enterByLpreq_run (s := w.resetSched) (hlpreq.trans hl), hround]
        exact inRun _

end Sleep
end Sys2Proof.Machine

/-! PROOFS. Contact edges and captures (R166 to R168, R159). -/

namespace Sys2Proof.Machine
open Sys2Proof Sys2Proof.Machine Sys2Proof.Machine.Claims

section Contacts

variable {s u : State} {i : ClassId} {level : Bool}

/-! ## An edge (R166, R167) -/

/-- The edge direction of a mode. -/
theorem EdgeMode.accepts_iff (m : EdgeMode) (level : Bool) :
    m.accepts level = true ↔ m = .both ∨ m = .rise ∧ level = true ∨ m = .fall ∧ level = false := by
  cases m <;> cases level <;> simp [EdgeMode.accepts]

/-- The part once an edge has been recognised, its capture not yet taken. -/
def State.tracks (i : ClassId) (level : Bool) (u : State) : State := { u with
  con := { u.con with
    tracked := u.con.tracked.set i level
    debounce := u.con.debounce.set i (if (u.prof.contacts.get i).debounce = 0 then none else some 0) }
  mir := { u.mir with dirty := true } }

/-- The part once the edge is captured too. -/
def State.captures (i : ClassId) (level : Bool) (u : State) : State := { u.tracks i level with
  con := { (u.tracks i level).con with
    slots := u.con.slots.set i (some (capture u.pow.time u.pow.coarse level (u.con.slots.get i))) } }

theorem edge_ignored (h : (u.prof.contacts.get i).mode = .off ∨ u.con.debounce.get i ≠ none ∨ u.con.tracked.get i = level) :
    u.edge i level = u := if_pos (by simpa [Option.isSome_iff_ne_none] using h)

theorem edge_eq (hm : (u.prof.contacts.get i).mode ≠ .off) (hd : u.con.debounce.get i = none) (ht : u.con.tracked.get i ≠ level) :
    u.edge i level = if (u.prof.contacts.get i).mode.accepts level = true then
      if (u.prof.contacts.get i).wake = true then (u.captures i level).wake 2 else u.captures i level
    else u.tracks i level := if_neg (by simp [hm, hd, ht])

/-- A wake cause of an accepted edge, written as the statement writes it. -/
theorem captures_wake : (if (u.prof.contacts.get i).wake = true then (u.captures i level).wake 2 else u.captures i level) =
    { u.captures i level with
      pow := { u.pow with wakeCause := if (u.prof.contacts.get i).wake = true ∧ u.pow.state = .doze then some (u.pow.wakeCause.getD 2) else u.pow.wakeCause }
      dram := { u.dram with exitReq := u.dram.exitReq || ((u.prof.contacts.get i).wake && decide (u.pow.state = .doze)) } } := by
  by_cases hw : (u.prof.contacts.get i).wake = true
  · by_cases hp : u.pow.state = .doze
    · rw [if_pos hw, State.wake_doze (s := u.captures i level) 2 hp]
      simp [hw, hp, State.captures, State.tracks]
    · rw [if_pos hw, State.wake_awake (s := u.captures i level) 2 hp]
      simp [hp, State.captures, State.tracks]
  · simp [hw, State.captures, State.tracks]

theorem edge_taken (u : State) (i : ClassId) (level : Bool) : EdgeTaken u (u.edge i level) i level := by
  refine ⟨edge_ignored, fun hm hd ht => ?_⟩
  rw [edge_eq hm hd ht]
  refine ⟨fun ha => ?_, fun ha hs => ?_, fun x ha hs => ?_⟩
  · rw [if_neg (mt (EdgeMode.accepts_iff _ _).mp ha)]
    simp [State.tracks]
  · rw [if_pos ((EdgeMode.accepts_iff _ _).mpr ha), captures_wake]
    simp [State.captures, State.tracks, hs, capture]
  · rw [if_pos ((EdgeMode.accepts_iff _ _).mpr ha), captures_wake]
    simp [State.captures, State.tracks, hs, capture, saturate]

theorem contactEvent_edge (h : s.dram.entryReq ≠ some .doze) : s.contactEvent i level = s.edge i level := if_neg (by simp [h])

theorem contactEvent_held (h : s.dram.entryReq = some .doze) (hd : s.con.debounce.get i = none) : s.contactEvent i level =
    { s with pow := { s.pow with heldEvents := s.pow.heldEvents ++ [.contact i level] } } := if_pos ⟨h, hd⟩

theorem contactEvent_bounces (hd : s.con.debounce.get i ≠ none) : s.contactEvent i level = s :=
  (if_neg (fun h => hd h.2)).trans (edge_ignored (.inr (.inl hd)))

/-! ## The pin and the debounce time (R166) -/

/-- The part with a pin at a level. -/
def State.pinned (i : ClassId) (level : Bool) (s : State) : State := { s with con := { s.con with pin := s.con.pin.set i level } }

theorem contactEdge_still (h : s.con.pin.get i = level) : exec (.contactEdge i level) s = .next s :=
  congrArg Host.Outcome.next (if_pos h)

theorem contactEdge_event (hsup : s.su.supply ≠ .off) (h : s.con.pin.get i ≠ level) :
    exec (.contactEdge i level) s = .next ((s.pinned i level).contactEvent i level) :=
  congrArg Host.Outcome.next ((if_neg h).trans (if_neg hsup))

/-- The part once the debounce time of an input has ended. -/
def State.debounced (i : ClassId) (x : Nat) (s : State) : State :=
  { s.pass ((s.prof.contacts.get i).debounce - x) with
    con := { (s.pass ((s.prof.contacts.get i).debounce - x)).con with
      debounce := (s.pass ((s.prof.contacts.get i).debounce - x)).con.debounce.set i none } }

@[simp] theorem pass_con (n : Nat) (s : State) : (s.pass n).con.pin = s.con.pin ∧ (s.pass n).con.tracked = s.con.tracked ∧
    (s.pass n).con.slots = s.con.slots := by
  unfold State.pass
  split <;> simp

theorem debounced_kept (i : ClassId) (x : Nat) (s : State) : (s.debounced i x).con.pin = s.con.pin ∧
    (s.debounced i x).con.tracked = s.con.tracked ∧ (s.debounced i x).con.debounce.get i = none ∧
    (s.debounced i x).dram.entryReq = s.dram.entryReq ∧ (s.debounced i x).pow.heldEvents = s.pow.heldEvents := by
  have hd := congrArg Dram.entryReq (pass_dram ((s.prof.contacts.get i).debounce - x) s)
  simp [State.debounced, hd]

theorem debounceEnd_eq {x : Nat} (hx : s.con.debounce.get i = some x) : exec (.debounceEnd i) s = .next
    (if s.con.pin.get i = s.con.tracked.get i then s.debounced i x else (s.debounced i x).contactEvent i (s.con.pin.get i)) := by
  obtain ⟨hpin, htracked, -⟩ := debounced_kept i x s
  rw [← hpin, ← htracked]
  simp only [exec, execDebounceEnd, hx]
  rfl

/-! ## A capture consumed (R35, R168) -/

theorem firstHeld_eq {c : Contacts} {x : Capture} (h : c.slots.get i = some x) (hn : ∀ j, j < i → c.slots.get j = none) :
    c.firstHeld = some i := by
  match i with
  | 0 => simp_all [Contacts.firstHeld, Four.get]
  | 1 =>
    have h0 := hn 0 (by decide)
    simp_all [Contacts.firstHeld, Four.get]
  | 2 =>
    have h0 := hn 0 (by decide)
    have h1 := hn 1 (by decide)
    simp_all [Contacts.firstHeld, Four.get]
  | 3 =>
    have h0 := hn 0 (by decide)
    have h1 := hn 1 (by decide)
    have h2 := hn 2 (by decide)
    simp_all [Contacts.firstHeld, Four.get]

theorem consumeOne_full (h : 8 ≤ s.stg.outbox.length) : s.consumeOne = s := by
  unfold State.consumeOne
  split
  · split
    · exact if_neg (by omega)
    · rfl
  · rfl

theorem consumeOne_room {x : Capture} (h : s.con.slots.get i = some x) (hn : ∀ j, j < i → s.con.slots.get j = none)
    (hl : s.stg.outbox.length < 8) : s.consumeOne = { s with
      con := { s.con with slots := s.con.slots.set i none }
      stg := { s.stg with outbox := s.stg.outbox ++ [partRecord 0xF1#8 false s.stamp (capturePayload i x)] }
      mir := { s.mir with dirty := true } } := by
  simp only [State.consumeOne, firstHeld_eq h hn, h, if_pos hl]
  exact State.offer_room _ _ hl

theorem captureConsumed_eq (hsup : s.su.supply = .running) (hd : s.pow.state ≠ .doze) (hs : s.pow.state ≠ .starting) :
    exec .captureConsumed s = .next s.consumeOne := congrArg Host.Outcome.next (if_pos (by simp [hsup, hd, hs]))

theorem timeWords_eq (t : Time) (coarse : Bool) :
    timeWords t coarse = [t.setWidth 32, BitVec.ofNat 32 (t.toNat / 2 ^ 32 + if coarse then 65536 else 0)] := by
  rw [timeWords, Nat.shiftRight_eq_div_pow, flag_eq]
  cases coarse <;> rfl

/-- Settles O54. -/
theorem contactEdgesCapturedAndConsumed : Obligations.ContactEdgesCapturedAndConsumed := by
  unfold Obligations.ContactEdgesCapturedAndConsumed
  refine ⟨fun s i level hsup he => ⟨contactEdge_still, fun hpin => ?_, fun x hx hpin => ?_⟩, fun s i level x he hx hpin => ?_,
    fun s i level hsup he hpin => ?_, fun s i x hx hn hsup hd hst => ⟨fun hl => ?_, ?_⟩⟩
  · refine ⟨_, contactEdge_event hsup hpin, ?_⟩
    rw [contactEvent_edge (s := s.pinned i level) he]
    exact edge_taken _ i level
  · intro v u
    rw [debounceEnd_eq hx, hpin]
    refine ⟨_, rfl, ?_⟩
    obtain ⟨-, htracked, -, hentry, -⟩ := debounced_kept i x s
    rw [contactEvent_edge (hentry ▸ he)]
    by_cases ht : level = s.con.tracked.get i
    · rw [if_pos ht, ← edge_ignored (u := s.debounced i x) (i := i) (level := level) (.inr (.inr (by rw [htracked, ht])))]
      exact edge_taken u i level
    · rw [if_neg ht]
      exact edge_taken u i level
  · intro v u
    rw [debounceEnd_eq hx, hpin]
    obtain ⟨-, -, hnone, hentry, hheld⟩ := debounced_kept i x s
    refine ⟨fun ht => ?_, fun ht => ?_⟩
    · rw [if_pos ht.symm]
      rfl
    · rw [if_neg (Ne.symm ht), contactEvent_held (hentry.trans he) hnone, hheld]
      rfl
  · rw [contactEdge_event hsup hpin]
    exact ⟨fun hd => congrArg Host.Outcome.next (contactEvent_held (s := s.pinned i level) he hd),
      fun hd => congrArg Host.Outcome.next (contactEvent_bounces (s := s.pinned i level) hd)⟩
  · rw [captureConsumed_eq hsup hd hst, consumeOne_full hl]
  · intro payload hl
    have hpayload : capturePayload i x = payload := by simp only [capturePayload, timeWords_eq]; rfl
    rw [captureConsumed_eq hsup hd hst, consumeOne_room hx hn hl, hpayload]

end Contacts
end Sys2Proof.Machine

/-! PROOFS. What the end of a grant does is blind to a request for self-refresh entry (R125, R147). -/

namespace Sys2Proof.Machine
open Sys2Proof Sys2Proof.Machine Sys2Proof.Machine.Claims

section Blindness

variable {s u : State} {c : Instr} {f g : State → State}

/-- The part with another request for self-refresh entry, other rows and another refresh. -/
def State.asks (q : Option EntryWhy) (rows : Four RowEntry) (x : RefreshPhase) (u : State) : State :=
  { u with dram := { u.dram with entryReq := q, rows := rows, refresh := x } }

/-- An operation that neither reads nor writes the request for self-refresh entry, the rows and the refresh. -/
def Blind (f : State → State) : Prop := ∀ q rows x u, f (u.asks q rows x) = (f u).asks q rows x

theorem asks_self (u : State) : u.asks u.dram.entryReq u.dram.rows u.dram.refresh = u := rfl

theorem Blind.comp (hg : Blind g) (hf : Blind f) : Blind (fun u => g (f u)) := fun q rows x u =>
  (congrArg g (hf q rows x u)).trans (hg q rows x (f u))

theorem Blind.kept (hf : Blind f) (u : State) : (f u).dram.entryReq = u.dram.entryReq ∧ (f u).dram.refresh = u.dram.refresh := by
  have h := hf u.dram.entryReq u.dram.rows u.dram.refresh u
  rw [asks_self] at h
  rw [h]
  exact ⟨rfl, rfl⟩

theorem blind_const {p : Prop} [Decidable p] (hf : Blind f) (hg : Blind g) : Blind (fun u => if p then f u else g u) := by
  by_cases h : p
  · simpa [h] using hf
  · simpa [h] using hg

theorem blind_id : Blind (fun u => u) := fun _ _ _ _ => rfl

/-! ## Ports, records and ECC effects -/

theorem blind_present (who : Source) (q : DramReq) : Blind (State.present who q) := fun _ _ _ _ => rfl

theorem blind_setCarry (p : Port) (c : Carry) : Blind (State.setCarry p c) := fun _ _ _ _ => rfl

theorem blind_answer (p : Port) (a : Response) : Blind (State.answer p a) := fun _ _ _ _ => rfl

theorem blind_raise (c : Cause) : Blind (State.raise c) := fun _ _ _ _ => rfl

theorem blind_offer (r : Record) : Blind (State.offer r) := fun q rows x _ =>
  .symm (apply_ite (State.asks q rows x) _ _ _)

theorem blind_offerNow (kind : Byte) (urgent : Bool) (payload : List Word) : Blind (State.offerNow kind urgent payload) :=
  fun q rows x u => blind_offer (partRecord kind urgent u.stamp payload) q rows x u

theorem blind_offerJournalEvent (code block failed : Nat) : Blind (State.offerJournalEvent code block failed) := blind_offerNow _ _ _

theorem blind_faultRecord (requester : Nat) (rs : List (Nat × EccResult)) : Blind (State.faultRecord requester rs) := by
  unfold State.faultRecord
  cases firstBad rs with
  | none => exact blind_id
  | some x => exact blind_offerNow _ _ _

theorem blind_eccWord (offers : Bool) (r : Nat × EccResult) : Blind (fun u => u.eccWord offers r) := by
  unfold State.eccWord
  cases r.2 with
  | clean w => exact blind_id
  | corrected w => exact fun _ _ _ _ => rfl
  | uncorrectable syn => exact fun _ _ _ _ => rfl

theorem blind_eccRead (offers : Bool) (rs : List (Nat × EccResult)) : Blind (State.eccRead offers rs) := by
  induction rs with
  | nil => exact blind_id
  | cons r rs ih => exact Blind.comp (f := fun u => u.eccWord offers r) ih (blind_eccWord offers r)

theorem blind_carryOut (r : DramReq) : Blind (State.carryOut r) := fun q rows x u =>
  blind_eccRead (!r.isRmw) (readsOf u.dram.cells r) q rows x { u with dram := { u.dram with cells := cellsAfter u.dram.cells r } }

theorem blind_acknowledge (g : Word) : Blind (State.acknowledge g) := fun q rows x u => by
  simp only [State.acknowledge, apply_ite (State.asks q rows x)]
  rfl

/-! ## Commit -/

theorem blind_noteStall : Blind State.noteStall := fun q rows x u => by
  simp only [State.noteStall, apply_ite (State.asks q rows x)]
  have hoffer := blind_offerJournalEvent 4 u.com.headBlock 0 q rows x (State.mark { u with com := { u.com with full := true } })
  exact ite_congr rfl (fun _ => (congrArg (State.raise .full) hoffer).trans (blind_raise .full q rows x _)) (fun _ => rfl)

theorem blind_settle : Blind State.settle := fun q rows x u => by
  refine Eq.trans ?_ (blind_noteStall q rows x _)
  exact congrArg State.noteStall (.symm (apply_ite (State.asks q rows x) _ _ _))

/-- A fetched candidate after its check (R42, R44). -/
def State.judged (d : DwrrCheck) (k : Candidate) (s : State) : State :=
  match d with
  | .take => State.settle { s with com := s.com.arrive s.prof k }
  | .endTurn => { s with com := { s.com with sched := s.com.sched.move s.prof .dwrr } }
  | .stale => s

theorem candidate_judged (k : Candidate) (s : State) : s.candidate k =
    State.judged (dwrrCheck s.com.sched k) k { s with com := { s.com with fetching := none } } := rfl

theorem blind_judged (d : DwrrCheck) (k : Candidate) : Blind (State.judged d k) := fun q rows x u => by
  cases d with
  | take => exact blind_settle q rows x { u with com := u.com.arrive u.prof k }
  | endTurn => rfl
  | stale => rfl

theorem blind_candidate (k : Candidate) : Blind (State.candidate k) := fun q rows x u =>
  blind_judged (dwrrCheck u.com.sched k) k q rows x { u with com := { u.com with fetching := none } }

/-! ## Burns -/

theorem blind_burnResult (i : SlotId) (block code : Nat) (sum : Sum16) : Blind (State.burnResult i block code sum) := fun q rows x u =>
  (congrArg (State.raise .burn) (blind_offerNow 0xF4#8 false [numWord block, numWord code, numWord sum.toNat] q rows x { u with
    img := { u.img with
      slots := u.img.slots.set i .empty
      results := ({ block := block, code := code, sum := sum } :: u.img.results).take 8 }
    mir := { u.mir with dirty := true } })).trans (blind_raise .burn q rows x _)

theorem blind_burnEnd (b : Burn) (code : Nat) (sum : Sum16) : Blind (State.burnEnd b code sum) := fun q rows x u =>
  blind_burnResult b.slot b.block code sum q rows x { u with img := { u.img with burn := none } }

theorem blind_burnOffer (b : Burn) : Blind (State.burnOffer b) := by
  unfold State.burnOffer
  cases b.held with
  | s5 pages => cases pages with
    | none => exact fun _ _ _ _ => rfl
    | some pages => cases pages <;> exact fun _ _ _ _ => rfl
  | _ => exact fun _ _ _ _ => rfl

theorem blind_burnNext (b : Burn) : Blind (State.burnNext b) := fun q rows x u => by
  simp only [State.burnNext, apply_ite (State.asks q rows x)]
  exact ite_congr rfl (fun _ => blind_burnOffer b q rows x u) (fun _ => rfl)

theorem blind_burnStep2 (b : Burn) (words : List Word) : Blind (State.burnStep2 b words) := by
  unfold State.burnStep2
  cases parseProfile (words.take 128) with
  | none => exact blind_burnEnd b 3 0#16
  | some p =>
    intro q rows x u
    simp only [apply_ite (State.asks q rows x)]
    exact ite_congr rfl (fun _ => blind_burnNext _ q rows x u) (fun _ => blind_burnEnd b 2 0#16 q rows x u)

theorem blind_burnRead (b : Burn) (words : List Word) : Blind (State.burnRead b words) := by
  unfold State.burnRead
  cases b.held with
  | s2 => exact blind_burnStep2 b words
  | _ => exact blind_burnNext _

theorem blind_fetched (b : Burn) (bad : Bool) (words : List Word) : Blind (State.fetched b bad words) := by
  unfold State.fetched
  refine blind_const (fun _ _ _ _ => rfl) (blind_const (blind_burnEnd b 7 0#16) ?_)
  cases b.fetchedJob words <;> exact fun _ _ _ _ => rfl

/-! ## The end of a grant while entry is asked for (R147) -/

/-- An operation that may come before the end of a grant: besides, it keeps what the start of the entry reads. -/
def Preparing (f : State → State) : Prop :=
  Blind f ∧ ∀ u, (f u).stg.queue = u.stg.queue ∧ (f u).prof = u.prof ∧ (f u).dram.owed = u.dram.owed

/-- The part with another request for self-refresh entry. -/
def State.asked (q : Option EntryWhy) (s : State) : State := { s with dram := { s.dram with entryReq := q } }

/-- The part once the entry goes on, asked for in `s`, after a grant that ended at `before`. -/
def State.entersAfter (s before : State) : State :=
  before.asks s.dram.entryReq (closedRows s.prof.banks) (if 0 < s.dram.owed then .entry else .none)

theorem endGrant_asks (hq : u.stg.queue = []) {why : Option EntryWhy} (hw : why ≠ none) (he : u.dram.entryReq = none) (rows : Four RowEntry) :
    (u.asks why rows .none).endGrant = u.endGrant.asks why (closedRows u.prof.banks) (if 0 < u.dram.owed then .entry else .none) := by
  rw [endGrant_plain u he]
  exact beginEntry_goes (s := { u.asks why rows .none with dram := { (u.asks why rows .none).dram with grant := none } }) hw hq rfl rfl

theorem ends_asked (hg : Blind g) (hf : Preparing f) (he : s.dram.entryReq ≠ none) (hq : s.stg.queue = []) (hr : s.dram.refresh = .none) :
    g (f s).endGrant = s.entersAfter (g (f (s.asked none)).endGrant) := by
  obtain ⟨hblind, hkept⟩ := hf
  obtain ⟨hqueue, hprof, howed⟩ := hkept (s.asked none)
  have hs : f s = (f (s.asked none)).asks s.dram.entryReq s.dram.rows .none := by
    rw [← hblind, ← hr]
    rfl
  rw [hs, endGrant_asks (hqueue.trans hq) he (hblind.kept (s.asked none)).1, hg, hprof, howed]
  rfl

/-- The command ends the grant in progress, with a request for entry or without one. -/
def Ends (c : Instr) (s : State) : Prop :=
  ∃ f g, Preparing f ∧ Blind g ∧ ∀ q, exec c (s.asked q) = .next (g (f (s.asked q)).endGrant)

/-- The command leaves the grant in progress where no entry is asked for. -/
def Stays (c : Instr) (s : State) : Prop := ∃ t, exec c (s.asked none) = .next t ∧ t.dram.grant = s.dram.grant

theorem Ends.entered (h : Ends c s) (he : s.dram.entryReq ≠ none) (hq : s.stg.queue = []) (hr : s.dram.refresh = .none) {before : State}
    (hb : exec c (s.asked none) = .next before) : exec c s = .next (s.entersAfter before) := by
  obtain ⟨f, g, hf, hg, hx⟩ := h
  have hbefore : g (f (s.asked none)).endGrant = before := Host.Outcome.next.inj ((hx none).symm.trans hb)
  rw [← hbefore, ← ends_asked hg hf he hq hr]
  exact hx s.dram.entryReq

end Blindness
end Sys2Proof.Machine

/-! PROOFS. The commands that end a grant, while self-refresh entry is asked for or not (R125, R147). -/

namespace Sys2Proof.Machine
open Sys2Proof Sys2Proof.Machine Sys2Proof.Machine.Claims

section GrantEnds

variable {s : State} {c : Instr} {p : Port}

/-! ## What comes before the end of a grant -/

theorem eccRead_owed (offers : Bool) (rs : List (Nat × EccResult)) (s : State) : (State.eccRead offers rs s).dram.owed = s.dram.owed := by
  rw [(eccRead_any offers rs s).1]

theorem faultRecord_queue (requester : Nat) (rs : List (Nat × EccResult)) (s : State) :
    (s.faultRecord requester rs).stg.queue = s.stg.queue := by
  unfold State.faultRecord
  split
  · rw [State.offerDramFault, offerNow_eq]
  · rfl

theorem preparing_carryOut (r : DramReq) : Preparing (State.carryOut r) :=
  ⟨blind_carryOut r, fun u => ⟨by simp [State.carryOut], by simp [State.carryOut], eccRead_owed _ _ _⟩⟩

/-- ECC effects and the fault record of the DRAM Controller's own grants. -/
theorem preparing_scrub (offers : Bool) (rs : List (Nat × EccResult)) {f : State → State} (hf : Preparing f) :
    Preparing (fun u => (State.eccRead offers rs (f u)).faultRecord scrubCode rs) := by
  refine ⟨Blind.comp (blind_faultRecord scrubCode rs) (Blind.comp (blind_eccRead offers rs) hf.1), fun u => ?_⟩
  obtain ⟨hqueue, hprof, howed⟩ := hf.2 u
  refine ⟨?_, by simpa using hprof, ?_⟩
  · rw [faultRecord_queue, ← hqueue]
    simp
  · rw [← howed, ← eccRead_owed offers rs (f u)]
    simp

theorem stays_of (h : exec c (s.asked none) = .next (s.asked none)) : Stays c s := ⟨_, h, rfl⟩

/-! ## The DRAM Controller's own grants (R134, R145) -/

theorem writeBackEnd_ends (s : State) : Ends .writeBackEnd s ∨ Stays .writeBackEnd s := by
  cases hg : s.dram.grant with
  | none => exact .inr (stays_of (by simp only [exec, execWriteBackEnd, State.asked, hg]))
  | some x => cases x with
    | writeBack off =>
      refine .inl ⟨_, fun u => u, preparing_scrub false (badOnly (readDram s.dram.cells off 1)) (f := fun u => { u with dram := { u.dram with
        cells := writeBackCells u.dram.cells off, correction := u.dram.correction.tail } }) ⟨fun _ _ _ _ => rfl, fun _ => ⟨rfl, rfl, rfl⟩⟩,
        blind_id, fun q => ?_⟩
      simp only [exec, execWriteBackEnd, State.asked, hg]
    | _ => exact .inr (stays_of (by simp only [exec, execWriteBackEnd, State.asked, hg]))

theorem patrolReadEnd_ends (s : State) : Ends .patrolReadEnd s ∨ Stays .patrolReadEnd s := by
  cases hg : s.dram.grant with
  | none => exact .inr (stays_of (by simp only [exec, execPatrolReadEnd, State.asked, hg]))
  | some x => cases x with
    | patrol off =>
      refine .inl ⟨_, fun u => u, preparing_scrub true (readDram s.dram.cells off 8) (f := fun u => { u with dram := { u.dram with
        patrol := u.dram.patrol - 1, scrub := scrubNext u.prof u.dram.scrub } }) ⟨fun _ _ _ _ => rfl, fun _ => ⟨rfl, rfl, rfl⟩⟩,
        blind_id, fun q => ?_⟩
      simp only [exec, execPatrolReadEnd, State.asked, hg]
    | _ => exact .inr (stays_of (by simp only [exec, execPatrolReadEnd, State.asked, hg]))

/-! ## Candidates and the mirror (R43, R174) -/

/-- A grant is a source's, or the DRAM Controller's own. -/
theorem grant_cases (who : Source) (s : State) :
    (∃ r, s.dram.grant = some (.source who r)) ∨ ∀ r, s.dram.grant ≠ some (.source who r) := by
  by_cases h : ∃ r, s.dram.grant = some (.source who r)
  · exact .inl h
  · exact .inr (not_exists.mp h)

theorem candidateReadComplete_ends (s : State) : Ends .candidateReadComplete s ∨ Stays .candidateReadComplete s := by
  rcases grant_cases .commit s with ⟨r, hg⟩ | hg
  · cases hf : s.com.fetching with
    | none => exact .inr (stays_of (by simp only [exec, execCandidateReadComplete, State.asked, hg, hf]))
    | some f =>
      refine .inl ⟨_, _, preparing_carryOut r, blind_candidate (s.candidateOf f (readsOf s.dram.cells r)
        (codeData (readCell dramDefault s.dram.cells r.span.1))), fun q => ?_⟩
      simp only [exec, execCandidateReadComplete, State.asked, hg, hf]
      rfl
  · refine .inr (stays_of (congrArg Host.Outcome.next ?_))
    split
    next r f h _ => exact absurd h (hg r)
    next => rfl

theorem mirrorWriteComplete_ends (s : State) : Ends .mirrorWriteComplete s ∨ Stays .mirrorWriteComplete s := by
  rcases grant_cases .mirror s with ⟨r, hg⟩ | hg
  · cases hw : s.mir.write with
    | none => exact .inr (stays_of (by simp only [exec, execMirrorWriteComplete, State.asked, hg, hw]))
    | some w =>
      by_cases hk : w.k = 5
      · refine .inl ⟨_, fun u => { u with mir := { u.mir with last := some s.mir.gen, write := none } }, preparing_carryOut r,
          fun _ _ _ _ => rfl, fun q => ?_⟩
        simp only [exec, execMirrorWriteComplete, State.asked, hg, hw, if_pos hk]
      · exact .inr (stays_of (by simp only [exec, execMirrorWriteComplete, State.asked, hg, hw, if_neg hk]))
  · refine .inr (stays_of (congrArg Host.Outcome.next ?_))
    split
    next r w h _ => exact absurd h (hg r)
    next => rfl

/-! ## Burns (R66, R88, R90) -/

theorem burnShadowReadComplete_ends (s : State) : Ends .burnShadowReadComplete s ∨ Stays .burnShadowReadComplete s := by
  have hstay : (∀ q b k ws, s.burnGrant = some q → s.burnInGrant = some b → b.act = .reading k ws →
      anyBad (readsOf s.dram.cells q) = false ∧ k ≠ 63) → Stays .burnShadowReadComplete s := fun h => by
    refine stays_of (congrArg Host.Outcome.next ?_)
    split
    next q b hq hb =>
      split
      next k ws ha =>
        obtain ⟨hbad, hk⟩ := h q b k ws hq hb ha
        exact (if_neg (by rw [Bool.not_eq_true]; exact hbad)).trans (if_neg hk)
      next => rfl
    next => rfl
  by_cases h : ∃ q b k ws, s.burnGrant = some q ∧ s.burnInGrant = some b ∧ b.act = .reading k ws ∧
      (anyBad (readsOf s.dram.cells q) = true ∨ k = 63)
  · obtain ⟨r, b, k, ws, hr, hb, ha, hx⟩ := h
    have hr' : ∀ q, (s.asked q).burnGrant = some r := fun _ => hr
    have hb' : ∀ q, (s.asked q).burnInGrant = some b := fun _ => hb
    by_cases hbad : anyBad (readsOf s.dram.cells r) = true
    · refine .inl ⟨_, _, preparing_carryOut r, blind_burnEnd b 7 0#16, fun q => ?_⟩
      simp only [exec, execBurnShadowReadComplete, hr', hb', ha]
      exact congrArg Host.Outcome.next (if_pos hbad)
    · refine .inl ⟨_, _, preparing_carryOut r, blind_burnRead b (ws ++ dataOf (readsOf s.dram.cells r)), fun q => ?_⟩
      simp only [exec, execBurnShadowReadComplete, hr', hb', ha]
      exact congrArg Host.Outcome.next ((if_neg hbad).trans (if_pos (hx.resolve_left hbad)))
  · refine .inr (hstay fun q b k ws hq hb ha => ?_)
    refine Classical.byContradiction fun hn => ?_
    exact h ⟨q, b, k, ws, hq, hb, ha, by by_cases hk : k = 63 <;> simp_all⟩

theorem sourceFetch_ends (s : State) : Ends .sourceFetchComplete s ∨ Stays .sourceFetchComplete s := by
  by_cases h : ∃ q b k ws, s.burnGrant = some q ∧ s.burnInGrant = some b ∧ b.act = .fetching k ws ∧
      (anyBad (readsOf s.dram.cells q) || k == 3) = true
  · obtain ⟨r, b, k, ws, hr, hb, ha, hx⟩ := h
    have hr' : ∀ q, (s.asked q).burnGrant = some r := fun _ => hr
    have hb' : ∀ q, (s.asked q).burnInGrant = some b := fun _ => hb
    refine .inl ⟨_, _, preparing_carryOut r, blind_fetched b (anyBad (readsOf s.dram.cells r)) (ws ++ dataOf (readsOf s.dram.cells r)), fun q => ?_⟩
    simp only [exec, execSourceFetchComplete, hr', hb', ha]
    exact congrArg Host.Outcome.next (if_pos hx)
  · refine .inr (stays_of (congrArg Host.Outcome.next ?_))
    split
    next q b hq hb =>
      split
      next k ws ha => exact if_neg (fun hx => h ⟨q, b, k, ws, hq, hb, ha, hx⟩)
      next => rfl
    next => rfl

/-! ## Ports (R82, R83, R116, R117) -/

/-- An operation that ends the grant in progress, with a request for entry or without one. -/
def EndsGrant (F : State → State) (s : State) : Prop := ∃ f g, Preparing f ∧ Blind g ∧ ∀ q, F (s.asked q) = g (f (s.asked q)).endGrant

theorem Ends.of {F : State → State} (h : EndsGrant F s) (hc : ∀ q, exec c (s.asked q) = .next (F (s.asked q))) : Ends c s := by
  obtain ⟨f, g, hf, hg, hx⟩ := h
  exact ⟨f, g, hf, hg, fun q => (hc q).trans (congrArg Host.Outcome.next (hx q))⟩

theorem plainEnd_ends (p : Port) (r : DramReq) (s : State) : EndsGrant (State.plainEnd p r) s :=
  ⟨_, _, preparing_carryOut r, Blind.comp (blind_answer p (dramAnswer (s.front p).write (readsOf s.dram.cells r)))
    (blind_faultRecord (portCode p) (readsOf s.dram.cells r)), fun _ => rfl⟩

theorem ackEnd_ends (p : Port) (r : DramReq) (s : State) : EndsGrant (State.ackEnd p r) s :=
  ⟨_, _, preparing_carryOut r, Blind.comp (blind_answer p (.done [])) (blind_acknowledge (wordAt (s.front p).data 0)), fun _ => rfl⟩

theorem storeEnd_ends (p : Port) (i : SlotId) (r : DramReq) (s : State) : EndsGrant (State.storeEnd p i r) s := by
  by_cases hb : anyBad (readsOf s.dram.cells r) = true
  · exact ⟨_, _, preparing_carryOut r, Blind.comp (blind_answer p (.refused .fault)) (blind_faultRecord (portCode p) (readsOf s.dram.cells r)),
      fun _ => if_pos hb⟩
  · exact ⟨_, _, preparing_carryOut r, Blind.comp (blind_answer p (.done [])) (f := fun u => { u with
      img := u.img.stored i (hasLastWord (s.imageTarget p).2 (s.front p).len) }) (fun _ _ _ _ => rfl), fun _ => if_neg hb⟩

theorem portGrantEnd_ends (p : Port) (s : State) :
    EndsGrant (State.portGrantEnd p) s ∨ ∀ q, (s.asked q).portGrantEnd p = s.asked q := by
  have hsame : ∀ q, (s.asked q).portGrant p = s.portGrant p := fun _ => rfl
  unfold State.portGrantEnd EndsGrant
  simp only [hsame]
  split
  next r _ => exact .inl (plainEnd_ends p r s)
  next r _ => exact .inl (ackEnd_ends p r s)
  next i r _ => exact .inl (storeEnd_ends p i r s)
  next => exact .inr fun _ => rfl

theorem portDramGrantEnd_ends (s : State) : Ends .portDramGrantEnd s ∨ Stays .portDramGrantEnd s := by
  have hport (p : Port) (h : ∀ q, exec .portDramGrantEnd (s.asked q) = .next ((s.asked q).portGrantEnd p)) :
      Ends .portDramGrantEnd s ∨ Stays .portDramGrantEnd s := (portGrantEnd_ends p s).imp (fun hx => .of hx h)
    (fun hx => stays_of ((h none).trans (congrArg Host.Outcome.next (hx none))))
  rcases grant_cases .svp s with ⟨r, hg⟩ | hs
  · exact hport .svp (fun q => by simp only [exec, execPortDramGrantEnd, State.asked, hg])
  rcases grant_cases .mnp s with ⟨r, hg⟩ | hm
  · exact hport .mnp (fun q => by simp only [exec, execPortDramGrantEnd, State.asked, hg])
  · refine .inr (stays_of (congrArg Host.Outcome.next ?_))
    split
    next r h => exact absurd h (hs r)
    next r h => exact absurd h (hm r)
    next => rfl

theorem slotFillComplete_ends (s : State) : Ends .slotFillComplete s ∨ Stays .slotFillComplete s := by
  have hsame : ∀ q, (s.asked q).portInGrant = s.portInGrant := fun _ => rfl
  by_cases h : ∃ p i q, s.portInGrant = some (p, .fill i 64, q)
  · obtain ⟨p, i, r, hp⟩ := h
    refine .inl (.of (storeEnd_ends p i r s) fun q => ?_)
    simp only [exec, execSlotFillComplete, hsame, hp]
  · refine .inr (stays_of (congrArg Host.Outcome.next ?_))
    split
    next p i q hp => exact absurd ⟨p, i, q, hp⟩ h
    next => rfl

theorem acknowledgeWrite_ends (p : Port) (s : State) : Ends (.acknowledgeWrite p) s ∨ Stays (.acknowledgeWrite p) s := by
  have hsame : ∀ q, (s.asked q).portGrant p = s.portGrant p := fun _ => rfl
  by_cases h : ∃ r, s.portGrant p = some (.ack, r)
  · obtain ⟨r, hr⟩ := h
    refine .inl (.of (ackEnd_ends p r s) fun q => ?_)
    simp only [exec, execAcknowledgeWrite, hsame, hr]
  · refine .inr ⟨_, rfl, ?_⟩
    split
    next r hr => exact absurd ⟨r, hr⟩ h
    next =>
      split
      next off _ =>
        rw [portDram_eq]
        rfl
      next => rfl

/-! ## One request of a sequence (R125) -/

theorem burnReadNext_ends (b : Burn) (r : DramReq) (s : State) :
    EndsGrant (State.burnReadNext b r) s ∨ ∀ q, (s.asked q).burnReadNext b r = s.asked q := by
  unfold EndsGrant State.burnReadNext
  split
  next k ws _ =>
    by_cases hx : (anyBad (readsOf s.dram.cells r) || k == 63) = true
    · exact .inr fun q => if_pos hx
    · exact .inl ⟨_, _, preparing_carryOut r, Blind.comp (blind_present .burn (s.shadowRead b.slot (k + 1))) (f := fun u => { u with
        img := { u.img with burn := some { b with act := .reading (k + 1) (ws ++ dataOf (readsOf s.dram.cells r)) } } })
        (fun _ _ _ _ => rfl), fun _ => if_neg hx⟩
  next k ws _ =>
    by_cases hx : (anyBad (readsOf s.dram.cells r) || k == 3) = true
    · exact .inr fun q => if_pos hx
    · exact .inl ⟨_, _, preparing_carryOut r, Blind.comp (blind_present .burn (s.shadowRead b.slot (4 * b.fetchPage + k + 1))) (f := fun u => { u with
        img := { u.img with burn := some { b with act := .fetching (k + 1) (ws ++ dataOf (readsOf s.dram.cells r)) } } })
        (fun _ _ _ _ => rfl), fun _ => if_neg hx⟩
  next => exact .inl ⟨_, fun u => u, preparing_carryOut r, blind_id, fun _ => rfl⟩

theorem mirrorNext_ends (w : MirrorWrite) (r : DramReq) (s : State) : EndsGrant (State.mirrorNext w r) s :=
  ⟨_, _, preparing_carryOut r, Blind.comp (blind_present .mirror (s.mirrorReq w.copy (w.k + 1))) (f := fun u => { u with
    mir := { u.mir with write := some { w with k := w.k + 1 } } }) (fun _ _ _ _ => rfl), fun _ => rfl⟩

/-- A port's fill goes on to its next request. -/
def State.fillGoesOn (p : Port) (i : SlotId) (k : Nat) (u : State) : State :=
  (u.setCarry p (.fill i (k + 1))).present (Source.ofPort p)
    (if k + 1 < 64 then .write ((u.setCarry p (.fill i (k + 1))).shadowOff i (16 * (k + 1))) fillWords
    else (u.setCarry p (.fill i (k + 1))).storeReq p i ((u.setCarry p (.fill i (k + 1))).imageTarget p).2)

theorem fillNext_ends (p : Port) (i : SlotId) (k : Nat) (r : DramReq) (s : State) : EndsGrant (State.fillNext p i k r) s :=
  ⟨_, State.fillGoesOn p i k, preparing_carryOut r, fun _ _ _ _ => rfl, fun _ => rfl⟩

theorem partRequestGrantEnd_ends (s : State) : Ends .partRequestGrantEnd s ∨ Stays .partRequestGrantEnd s := by
  have hin : ∀ q, (s.asked q).burnInGrant = s.burnInGrant := fun _ => rfl
  have hport : ∀ q, (s.asked q).portInGrant = s.portInGrant := fun _ => rfl
  have hgrant : ∀ q, (s.asked q).dram.grant = s.dram.grant := fun _ => rfl
  have hwrite : ∀ q, (s.asked q).mir.write = s.mir.write := fun _ => rfl
  have of (F : State → State) (h : ∀ q, exec .partRequestGrantEnd (s.asked q) = .next (F (s.asked q)))
      (hF : EndsGrant F s ∨ ∀ q, F (s.asked q) = s.asked q) : Ends .partRequestGrantEnd s ∨ Stays .partRequestGrantEnd s :=
    hF.imp (fun hx => .of hx h) (fun hx => stays_of ((h none).trans (congrArg Host.Outcome.next (hx none))))
  rcases grant_cases .burn s with ⟨r, hg⟩ | hb
  · cases hi : s.burnInGrant with
    | some b => exact of (State.burnReadNext b r) (fun q => by simp only [exec, execPartRequestGrantEnd, hgrant, hg, hin, hi]) (burnReadNext_ends b r s)
    | none =>
      exact of (fun u => (u.carryOut r).endGrant) (fun q => by simp only [exec, execPartRequestGrantEnd, hgrant, hg, hin, hi])
        (.inl ⟨_, fun u => u, preparing_carryOut r, blind_id, fun _ => rfl⟩)
  rcases grant_cases .mirror s with ⟨r, hg⟩ | hm
  · cases hw : s.mir.write with
    | none => exact of (fun u => u) (fun q => by simp only [exec, execPartRequestGrantEnd, hgrant, hg, hwrite, hw]) (.inr fun _ => rfl)
    | some w =>
      by_cases hk : w.k < 5
      · exact of (State.mirrorNext w r) (fun q => by simp only [exec, execPartRequestGrantEnd, hgrant, hg, hwrite, hw, if_pos hk])
          (.inl (mirrorNext_ends w r s))
      · exact of (fun u => u) (fun q => by simp only [exec, execPartRequestGrantEnd, hgrant, hg, hwrite, hw, if_neg hk]) (.inr fun _ => rfl)
  by_cases hp : ∃ p i k r, s.portInGrant = some (p, .fill i k, r) ∧ k < 64
  · obtain ⟨p, i, k, r, hp, hk⟩ := hp
    refine of (State.fillNext p i k r) (fun q => congrArg Host.Outcome.next ?_) (.inl (fillNext_ends p i k r s))
    split
    next r h => exact absurd h (hb r)
    next r h => exact absurd h (hm r)
    next => simp only [hport, hp, if_pos hk]
  · refine .inr (stays_of (congrArg Host.Outcome.next ?_))
    split
    next r h => exact absurd h (hb r)
    next r h => exact absurd h (hm r)
    next =>
      split
      next p i k r h => exact if_neg (fun hk => hp ⟨p, i, k, r, h, hk⟩)
      next => rfl

theorem grantEnds_end (hc : c ∈ grantEnds) (s : State) : Ends c s ∨ Stays c s := by
  simp only [grantEnds, List.mem_cons, List.not_mem_nil, or_false] at hc
  rcases hc with rfl | rfl | rfl | rfl | rfl | rfl | rfl | rfl | rfl | rfl | rfl
  · exact portDramGrantEnd_ends s
  · exact partRequestGrantEnd_ends s
  · exact slotFillComplete_ends s
  · exact acknowledgeWrite_ends .svp s
  · exact acknowledgeWrite_ends .mnp s
  · exact burnShadowReadComplete_ends s
  · exact sourceFetch_ends s
  · exact candidateReadComplete_ends s
  · exact mirrorWriteComplete_ends s
  · exact writeBackEnd_ends s
  · exact patrolReadEnd_ends s

end GrantEnds
end Sys2Proof.Machine

/-! PROOFS. The settled part goes to sleep (R147, R154 to R156, R163, R165). -/

namespace Sys2Proof.Machine
open Sys2Proof Sys2Proof.Machine Sys2Proof.Machine.Claims

section ToSleep

variable {s : State}

/-! ## The settled conditions (R155) -/

theorem blocked_iff (s : State) : s.blocked = true ↔ Blocked s := by simp [State.blocked, Blocked]

theorem commitSettled_iff (s : State) : s.commitSettled = true ↔ ((∀ c, s.com.queues.get c = []) ∧ s.stg.queue = [] ∧ s.com.held = none ∧
    s.com.fillingHolds = false ∧ s.com.closed = [] ∧ s.com.inflight = none) ∨ s.com.stalled = true := by
  simp only [State.commitSettled, Bool.or_eq_true, Bool.and_eq_true, drained_iff, List.isEmpty_iff, Option.isNone_iff_eq_none, Bool.not_eq_true',
    and_assoc]

theorem Image.settled_iff (m : Image) : m.settled = true ↔ ∀ b, m.burn = some b → b.paused = true := by
  cases h : m.burn <;> simp [Image.settled, h]

theorem allNone_iff (f : Four (Option OpenCtx)) : f.toList.all Option.isNone = true ↔ ∀ c, f.get c = none := by
  rw [List.all_eq_true]
  refine ⟨fun h i => ?_, fun h x hx => ?_⟩
  · simpa using h _ ((Four.mem_toList f _).mpr ⟨i, rfl⟩)
  · obtain ⟨i, rfl⟩ := (Four.mem_toList f x).mp hx
    simp [h i]

theorem settled_iff (s : State) : s.settled = true ↔ Settled s := by
  have hctx : (∀ c, s.context .mnp c = none) ↔ s.ctx.mnp.toList.all Option.isNone = true := (allNone_iff s.ctx.mnp).symm
  have hsvp : (s.pow.state = .settling → s.ports.svp.queue = []) ↔ (s.pow.state != .settling || s.ports.svp.queue.isEmpty) = true := by
    simp only [bne_iff_ne, Bool.or_eq_true, List.isEmpty_iff]
    exact Decidable.imp_iff_not_or
  simp only [Settled, State.settled, State.mnpIdle, hctx, hsvp, Bool.and_eq_true, beq_iff_eq, Bool.or_eq_true, commitSettled_iff, free_iff,
    Image.settled_iff, List.isEmpty_iff, blocked_iff, noneHeld_iff, decide_eq_true_eq, and_assoc]

/-! ## Announcement, commit point, relapse timer (R154, R156) -/

theorem dozeAnnouncement_goes (ha : Awake s) (h : Settled s) (hp : s.pow.entryPending = false) :
    exec .dozeAnnouncement s = .next (({ s with pow := { s.pow with entryPending := true } } : State).offerDoze 1 0) :=
  congrArg Host.Outcome.next (if_pos (by simp [working_awake ha, (settled_iff s).mpr h, hp]))

theorem dozeAnnouncement_waits (h : ¬ Settled s) : exec .dozeAnnouncement s = .next s :=
  congrArg Host.Outcome.next (if_neg (by simp [mt (settled_iff s).mp h]))

theorem dozeCommitPoint_goes (ha : Awake s) (h : Settled s) (hp : s.pow.entryPending = true) (hq : s.stg.queue = []) :
    exec .dozeCommitPoint s = .next (s.requestEntry .doze) :=
  congrArg Host.Outcome.next (if_pos (by simp [working_awake ha, (settled_iff s).mpr h, hp, hq]))

theorem dozeCommitPoint_waits (h : ¬ Settled s ∨ s.stg.queue ≠ []) : exec .dozeCommitPoint s = .next s :=
  congrArg Host.Outcome.next (if_neg (by
    rcases h with h | h
    · simp [mt (settled_iff s).mp h]
    · simp [h]))

theorem relapseTimerExpiry_eq (ha : Awake s) :
    exec .relapseTimerExpiry s = .next (s.pass (s.prof.relapseInterval - s.pow.relapse)) := by
  have hcounts : s.pow.state.relapseCounts = true := by rcases ha.2.2 with h | h | h | h <;> simp [h, PowerState.relapseCounts]
  exact congrArg Host.Outcome.next (if_pos (by simp [clockRuns_awake ha, hcounts]))

theorem pass_relapse (ha : Awake s) (n : Nat) : (s.pass n).pow.relapse = advance s.prof.relapseInterval s.pow.relapse n := by
  have hcounts : s.pow.state.relapseCounts = true := by rcases ha.2.2 with h | h | h | h <;> simp [h, PowerState.relapseCounts]
  simp [State.pass, ha.1, clockRuns_awake ha, hcounts]

/-! ## The sleep (R147, R156, R163) -/

theorem edge_state (i : ClassId) (level : Bool) (s : State) : (s.edge i level).pow.state = s.pow.state := by
  have hwake : ∀ u : State, (u.wake 2).pow.state = u.pow.state := fun u => by
    unfold State.wake
    split <;> rfl
  unfold State.edge
  dsimp only
  split
  · rfl
  · split
    · split
      · exact hwake _
      · rfl
    · rfl

theorem takeHeld_wakes {e : HeldEvent} {code : Nat} (h : heldCause e code) (hp : s.pow.state = .doze) : s.takeHeld e =
    { s with pow := { s.pow with wakeCause := some (s.pow.wakeCause.getD code) }, dram := { s.dram with exitReq := true } } := by
  rcases h with ⟨rfl, rfl⟩ | ⟨rfl, rfl⟩ | ⟨rfl, rfl⟩ <;> exact State.wake_doze _ hp

theorem heldTaken_fold (es : List HeldEvent) (hp : s.pow.state = .doze) : HeldTaken es s (es.foldl State.takeHeld s) := by
  induction es generalizing s with
  | nil => exact .done s
  | cons e es ih =>
    have hwakes {code : Nat} (h : heldCause e code) : HeldTaken (e :: es) s ((e :: es).foldl State.takeHeld s) := by
      refine .wakes e code es s _ h ?_
      rw [List.foldl_cons, takeHeld_wakes h hp]
      exact ih hp
    cases e with
    | contact i level => exact .edge i level es s _ _ (edge_taken s i level) (ih ((edge_state i level s).trans hp))
    | mnpArrived => exact hwakes (.inl ⟨rfl, rfl⟩)
    | lpreqReleased => exact hwakes (.inr (.inl ⟨rfl, rfl⟩))
    | pfwAsserted => exact hwakes (.inr (.inr ⟨rfl, rfl⟩))

/-- The part asleep in DOZE, no held event taken yet. -/
def State.dozing (s : State) : State := { s with
  pow := { s.pow with
    state := .doze, coarse := true, entryPending := false, heldEvents := [], wakeCause := none
    wakeTimer := if s.prof.wakeInterval = 0 then none else some 0 }
  dram := Asleep s (closedRows s.prof.banks)
  mir := { s.mir with dirty := true } }

theorem selfRefreshEntered_doze (hq : s.stg.queue = []) (hg : s.dram.grant = none) (hr : s.dram.refresh = .none ∨ s.dram.refresh = .entry)
    (he : s.dram.entryReq = some .doze) : exec .selfRefreshEntered s = .next (s.pow.heldEvents.foldl State.takeHeld s.dozing) := by
  have hgo : (s.stg.queue.isEmpty && s.dram.grant.isNone && (s.dram.refresh == .none || s.dram.refresh == .entry)) = true := by simp [hq, hg, hr]
  refine congrArg Host.Outcome.next ((if_pos hgo).trans ?_)
  rw [he]
  rfl

theorem selfRefreshEntered_halt (hq : s.stg.queue = []) (hg : s.dram.grant = none) (hr : s.dram.refresh = .none ∨ s.dram.refresh = .entry)
    (he : s.dram.entryReq = some .halt) : exec .selfRefreshEntered s = .next s.sleepDram.enterPfHalt := by
  have hgo : (s.stg.queue.isEmpty && s.dram.grant.isNone && (s.dram.refresh == .none || s.dram.refresh == .entry)) = true := by simp [hq, hg, hr]
  refine congrArg Host.Outcome.next ((if_pos hgo).trans ?_)
  rw [he]

theorem selfRefreshEntered_waits (hq : s.stg.queue ≠ []) : exec .selfRefreshEntered s = .next s :=
  congrArg Host.Outcome.next (if_neg (by simp [hq]))

/-- Settles O52. -/
theorem settledPartGoesToSleep : Obligations.SettledPartGoesToSleep := by
  unfold Obligations.SettledPartGoesToSleep
  intro s
  refine ⟨fun ha => ⟨fun h hp => ?_, fun h hp hq => ?_, fun hq => dozeCommitPoint_waits (.inr hq),
    fun h => ⟨dozeAnnouncement_waits h, dozeCommitPoint_waits (.inl h)⟩, fun hle => ⟨_, rfl, relapseTimerExpiry_eq ha, ?_⟩⟩, fun hr => ?_,
    fun c before hc he hq hg hr hb hnone => ?_, selfRefreshEntered_waits, fun hq hg hr => ?_⟩
  · exact ⟨_, dozeAnnouncement_goes ha h hp, offerDoze_dozed 1 0 _⟩
  · exact ⟨_, dozeCommitPoint_goes ha h hp hq, requestEntry_asked hq .doze⟩
  · rw [pass_relapse ha, advance]
    omega
  · simp only [exec, execRefreshEnd, hr]
  · rcases grantEnds_end hc s with h | ⟨t, ht, hsame⟩
    · exact ⟨_, h.entered he hq hr hb, closedRows_allClosed s.prof, rfl⟩
    · have hbt : before = t := Host.Outcome.next.inj (hb.symm.trans ht)
      exact absurd (hsame.symm.trans (hbt ▸ hnone)) hg
  · intro sleep
    have hsleep : s.dozing = sleep none (closedRows s.prof.banks) := by simp [sleep, State.dozing, Asleep]
    refine ⟨fun he hheld => ?_, fun e code he hheld hcode => ?_, fun he => ?_, fun he => ?_⟩
    · rw [selfRefreshEntered_doze hq hg hr he, hheld]
      exact ⟨_, rfl, closedRows_allClosed s.prof, hsleep⟩
    · rw [selfRefreshEntered_doze hq hg hr he, hheld, List.foldl_cons, List.foldl_nil, takeHeld_wakes hcode (s := s.dozing) rfl]
      exact ⟨_, rfl, closedRows_allClosed s.prof, by simp [sleep, State.dozing, Asleep]⟩
    · rw [selfRefreshEntered_doze hq hg hr he]
      exact ⟨closedRows s.prof.banks, _, rfl, closedRows_allClosed s.prof, hsleep ▸ heldTaken_fold (s := s.dozing) s.pow.heldEvents rfl⟩
    · rw [selfRefreshEntered_halt hq hg hr he]
      exact ⟨_, rfl, closedRows_allClosed s.prof, rfl⟩

end ToSleep
end Sys2Proof.Machine

/-! PROOFS. The quiet timer's expiry and the SVRST pulse (R171, R172, R176; log 37). -/

namespace Sys2Proof.Machine
open Sys2Proof Sys2Proof.Machine Sys2Proof.Machine.Claims

section Quiet

variable {s : State} {p : Port} {r : Request} {rest : List Request} {c : ClassId} {k : Nat}

/-! ## The expiry (R171) -/

/-- The part once the consecutive count has risen and its QUIET record is offered. -/
def State.quietReported (u : State) : State :=
  State.offerNow 0xF3#8 false [numWord (saturate 65535 (u.latchPayload .svp).quiet.count 1)]
    (({ u.latchPayload .svp with quiet.count := saturate 65535 (u.latchPayload .svp).quiet.count 1 } : State).mark)

/-- The part once SVP's records are abandoned in the pulse. -/
def State.quietRaised (u : State) : State := (({ u.quietReported with quiet.pulse := some 0 } : State).abandonPort .svp 3).raise .quiet

/-- The part once SVP is reset. -/
def State.quietReset (u : State) : State :=
  { u.quietRaised with quiet.remaining := some (u.quietRaised.prof.quietInterval * 1000) }

@[simp] theorem quietReported_kept (u : State) : u.quietReported.pending = u.pending ∧ u.quietReported.ctx = u.ctx ∧
    u.quietReported.com = u.com ∧ u.quietReported.flash = u.flash ∧ u.quietReported.img = u.img ∧ u.quietReported.lock = u.lock ∧
    u.quietReported.dram = u.dram ∧ u.quietReported.pow = u.pow ∧ u.quietReported.con = u.con ∧ u.quietReported.su = u.su ∧
    u.quietReported.prof = u.prof ∧ u.quietReported.free = u.free ∧ u.quietReported.stg.rings = u.stg.rings ∧
    u.quietReported.stg.queue = u.stg.queue ∧ u.quietReported.stg.writing = u.stg.writing ∧ u.quietReported.stg.last = u.stg.last ∧
    u.quietReported.mir.gen = u.mir.gen ∧ u.quietReported.mir.last = u.mir.last ∧ u.quietReported.mir.write = u.mir.write ∧
    u.quietReported.ports = (u.latchPayload .svp).ports ∧
    u.quietReported.quiet = { u.quiet with count := saturate 65535 u.quiet.count 1 } := by
  rw [State.quietReported, offerNow_eq]
  simp [State.mark]

theorem quietReported_offered (u : State) :
    Offered u u.quietReported (partRecord 0xF3#8 false u.stamp [BitVec.ofNat 32 (min 65535 (u.quiet.count + 1))]) := by
  have hcount : (u.latchPayload .svp).quiet.count = u.quiet.count := by simp
  have h := offerNow_offered 0xF3#8 false [numWord (saturate 65535 u.quiet.count 1)]
    (({ u.latchPayload .svp with quiet.count := saturate 65535 u.quiet.count 1 } : State).mark)
  have hstamp : (({ u.latchPayload .svp with quiet.count := saturate 65535 u.quiet.count 1 } : State).mark).stamp = u.stamp := by
    simp [State.stamp, State.mark]
  rw [hstamp] at h
  rw [State.quietReported, hcount]
  exact h.before (s := u) (bs := []) (by simp [State.mark]) (by simp [State.mark]) (causesKept_of_eq (by simp [State.mark])) (by simp)

theorem quietReset_offeredAll (u : State) : OfferedAll u u.quietReset
    (partRecord 0xF3#8 false u.stamp [BitVec.ofNat 32 (min 65535 (u.quiet.count + 1))] :: abandonments u .svp 3) [.quiet] := by
  have hone := offeredAll_one (quietReported_offered u)
  have hsvp := abandonPort_offeredAll .svp 3 { u.quietReported with quiet.pulse := some 0 }
  rw [abandonments_congr (s := u) (fun d => by simp [State.context]) (by simp [State.stamp])] at hsvp
  have hall := hone.trans (hsvp.before (s := u.quietReported) (bs := []) (cs := []) rfl rfl (causesKept_of_eq rfl) (by simp) (by simp))
    (by simp) (cs := []) (by simp)
  have hraise := raise_causesKept .quiet (State.abandonPort .svp 3 { u.quietReported with quiet.pulse := some 0 })
  exact hall.after (u := u.quietReset) (bs := [.quiet]) (cs := [.quiet]) (by simp [State.quietReset, State.quietRaised]) (by simp [State.quietReset, State.quietRaised])
    (hraise.trans (u := u.quietReset) (bs := []) (causesKept_of_eq rfl) (by simp)) (by simp) (by simp)

theorem quietReset_released (u : State) : Released u u.quietReset [.svp] := by
  intro d
  have hrings : u.quietReset.stg.rings = (State.abandonPort .svp 3 { u.quietReported with quiet.pulse := some 0 }).stg.rings := by
    simp [State.quietReset, State.quietRaised]
  rw [hrings, abandonPort_rings, openCount_congr (s := u) (fun q _ => by simp [State.context])]
  simp [openCount]

theorem quietReset_quiet (u : State) : u.quietReset.quiet =
    { remaining := some (u.prof.quietInterval * 1000), count := min 65535 (u.quiet.count + 1), pulse := some 0 } := by
  simp [State.quietReset, State.quietRaised, saturate]

theorem quietReset_waiting (u : State) : u.quietReset.mir.attention.get Cause.quiet.ix = .waiting := by
  simp [State.quietReset, State.quietRaised]

theorem quietReset_frame (u : State) : u.quietReset = { u with
    ports := u.quietReset.ports
    ctx := { u.ctx with svp := Four.const none }
    stg := { u.stg with rings := u.quietReset.stg.rings, outbox := u.quietReset.stg.outbox, lost := u.quietReset.stg.lost }
    quiet := { remaining := some (u.prof.quietInterval * 1000), count := min 65535 (u.quiet.count + 1), pulse := some 0 }
    mir := { u.mir with dirty := true, attention := u.quietReset.mir.attention } } := by
  refine State.eq_of_fields ?_ ?_ ?_ (Staging.eq_of_fields rfl ?_ ?_ ?_ rfl rfl) ?_ ?_ ?_ ?_ ?_ ?_ ?_ (quietReset_quiet u)
    (Mirror.eq_of_fields ?_ ?_ ?_ ?_ ?_) ?_ ?_ ?_
  all_goals simp [State.quietReset, State.quietRaised, abandonPort_ctx, PerPort.set]

theorem attn_of_waiting {u : State} {i : Fin 8} (h : u.mir.attention.get i = .waiting) : u.attn = true := by
  rw [State.attn, List.any_eq_true]
  exact ⟨.waiting, h ▸ Eight.get_mem_toList u.mir.attention i, rfl⟩

theorem pass_quietCount (n : Nat) (s : State) : (s.pass n).quiet.count = s.quiet.count := by
  unfold State.pass
  split <;> rfl

theorem quietExpiry_eq {x : Nat} (hx : s.quiet.remaining = some x) (hsup : s.su.supply = .running) (hp : s.pow.state = .run) :
    exec .quietExpiry s = .next (s.pass x).quietReset := by
  have hgo : (s.clockRuns && s.pow.state == .run) = true := by simp [State.clockRuns, hsup, hp]
  simp only [exec, execQuietExpiry, hx, hgo, if_true]
  rfl

/-! ## The pulse (R172) -/

theorem svrstPulseEnd_eq {x : Nat} (hx : s.quiet.pulse = some x) :
    exec .svrstPulseEnd s = .next { s.pass (10 - x) with quiet := { (s.pass (10 - x)).quiet with pulse := none } } := by
  simp only [exec, execSvrstPulseEnd, hx]

theorem svrst_false (u : State) : ({ u with quiet := { u.quiet with pulse := none } } : State).svrst = false := rfl

/-! ## A payload write that was in carry (R15, R171; log 37) -/

theorem taking_taken (h : Carried s p .taken r rest) : s.taking p = lookup s.prof.windows r := by
  obtain ⟨hs, hc, hq, -⟩ := h
  simp [State.taking, State.currentRequest, hs, hc, hq]

theorem journalAnswer_order (h : Carried s p .taken r rest) :
    State.journalAnswer p (some .order, s.take p) = refusedAtOnce s p rest .order := by
  have hcar : Carried (s.take p) p .taken r rest := by rw [State.take_eq]; exact h
  rw [State.journalAnswer, answer_carried hcar, State.take_eq]
  rfl

theorem payloadWord_emptied (h : Carried s p .taken r rest) (hn : s.context p c = none) (hl : lookup s.prof.windows r = .payload c k) :
    exec (.payloadWord p) s = .next (refusedAtOnce s p rest .order) := by
  have hctx : (s.take p).context p c = none := by rw [State.take_eq]; exact hn
  simp only [exec, execPayloadWord, taking_taken h, hl, State.putPayload_order hctx, journalAnswer_order h]

theorem journalBurst_emptied {w : Word} {ws : List Word} (h : Carried s p .taken r rest) (hn : s.context p c = none)
    (hl : lookup s.prof.windows r = .burst c k) (hk : 1 ≤ k) (hk' : k ≤ 12) (hd : r.data = w :: ws) :
    exec (.journalBurst p) s = .next (refusedAtOnce s p rest .order) := by
  have hctx : (s.take p).context p c = none := by rw [State.take_eq]; exact hn
  have hword : (s.take p).journalWord p c k true w = (some .order, s.take p) := by
    rw [State.journalWord, if_neg (by omega), if_pos hk', State.putPayload_order hctx]
  have hwords : (s.take p).journalWords p c k r.data = (some .order, s.take p) := by
    rw [hd, State.journalWords, hword]
  simp only [exec, execJournalBurst, taking_taken h, hl, front_carried h, hwords, journalAnswer_order h]

/-- Settles O55. -/
theorem quietExpiryResetsTheSupervisor : Obligations.QuietExpiryResetsTheSupervisor := by
  unfold Obligations.QuietExpiryResetsTheSupervisor
  refine ⟨fun s x hx hsup hp => ⟨s.pass x, (s.pass x).quietReset, rfl, quietExpiry_eq hx hsup hp, ?_, ?_, quietReset_waiting _, ?_, ?_,
    quietReset_released _, ?_⟩, fun s x hx => ⟨_, rfl, svrstPulseEnd_eq hx, svrst_false _⟩,
    fun s p r rest c k h hn => ⟨payloadWord_emptied h hn, fun w ws hl hk hk' hd => journalBurst_emptied h hn hl hk hk' hd⟩⟩
  · simp [State.svrst, quietReset_quiet]
  · exact attn_of_waiting (quietReset_waiting _)
  · have h := quietReset_frame (s.pass x)
    have hinterval : (s.pass x).prof.quietInterval = s.prof.quietInterval := congrArg Profile.quietInterval (pass_prof x s)
    rw [pass_quietCount, hinterval] at h
    exact h
  · exact latchPayload_latched (s.pass x) .svp (by simp [State.quietReset, State.quietRaised])
  · rw [← pass_quietCount x s]
    exact quietReset_offeredAll (s.pass x)

end Quiet
end Sys2Proof.Machine

/-! PROOFS. The resets take each block (R78, R104, R122, R139, R149, R178, R179). -/

namespace Sys2Proof.Machine
open Sys2Proof Sys2Proof.Machine Sys2Proof.Machine.Claims

section Resets

variable {s t v : State}

/-! ## The flash operation cut off (R78) -/

theorem cutOffAll_none (hc : v.flash.current = none) (hs : v.flash.suspended = none) : v.cutOffAll = v := by
  simp only [State.cutOffAll, hc, hs]

theorem cutOff_suspended (j : Job) (v : State) : (v.cutOff j).flash.suspended = v.flash.suspended := by rw [cutOff_eq]

theorem cutOffAll_current {r : Running} (hc : v.flash.current = some r) (hs : v.flash.suspended = none) : v.cutOffAll = v.cutOff r.job := by
  simp only [State.cutOffAll, hc, cutOff_suspended, hs]

theorem cutOffAll_suspended {r : Running} (hc : v.flash.current = none) (hs : v.flash.suspended = some r) : v.cutOffAll = v.cutOff r.job := by
  simp only [State.cutOffAll, hc, hs]

theorem cutOff_harmless {j : Job} (he : j.isErase = false) (hp : ∀ b p, j ≠ .pageProgram b p) (hb : ∀ b p ws, j ≠ .burnProgram b p ws) :
    v.cutOff j = v := by
  cases j with
  | pageProgram b p => exact absurd rfl (hp b p)
  | burnProgram b p ws => exact absurd rfl (hb b p ws)
  | upErase b => exact absurd he (by simp [Job.isErase])
  | burnErase b => exact absurd he (by simp [Job.isErase])
  | _ => rfl

theorem cutOff_erase {j : Job} {b : Nat} (hj : j = .upErase b ∨ j = .burnErase b) :
    (v.cutOff j).flash.cells = partEraseBlock v.free v.flash.cells b := by
  rcases hj with rfl | rfl <;> rfl

theorem cutOff_page {f : InFlight} (hf : v.com.inflight = some f) : (v.cutOff (.pageProgram f.block f.page)).flash.cells =
    tearWords v.free v.flash.cells (flashAddr f.block f.page 0) (pageWords f) := by
  simp [State.cutOff, State.leaveTorn, State.pageSource, hf]

/-- The flash after the operation in progress is cut off, in a state with the flash and the IN-FLIGHT page of `s`. -/
theorem flashCutOff (hf : v.flash = s.flash) (hc : v.com = s.com) (ht : t.flash.cells = v.cutOffAll.flash.cells) : FlashCutOff s t := by
  refine ⟨fun h1 h2 => ?_, fun r h1 h2 he hp hb => ?_, fun r b h1 h2 hj => ?_, fun r b h1 h2 hj => ?_, fun r b p ws h1 h2 hj hm => ?_,
    fun r f h1 h2 hi hj hm => ?_⟩
  · rw [ht, cutOffAll_none (by rw [hf]; exact h1) (by rw [hf]; exact h2), hf]
  all_goals rw [← hf] at h1 h2
  · rw [ht, cutOffAll_current h1 h2, cutOff_harmless he hp hb, hf]
  · exact partErased_of_cells (by rw [ht, cutOffAll_current h1 h2, cutOff_erase hj, hf])
  · exact partErased_of_cells (by rw [ht, cutOffAll_suspended h1 h2, cutOff_erase hj, hf])
  · exact torn_of_cells (flashWf_of_memoryWf hm) (by rw [ht, cutOffAll_current h1 h2, hj, ← hf]; rfl)
  · exact torn_of_cells (flashWf_of_memoryWf hm) (by rw [ht, cutOffAll_current h1 h2, hj, cutOff_page (by rw [hc]; exact hi), hf])

/-! ## Power-on and power loss -/

theorem powerReset_poweredOn (supply : Supply) (s : State) : PoweredOn s (s.powerReset supply) supply := by
  refine State.eq_of_fields ?_ ?_ rfl rfl rfl (Flash.eq_of_fields rfl rfl rfl rfl rfl rfl rfl rfl) rfl ?_ rfl ?_ ?_ rfl rfl rfl rfl rfl
  all_goals simp [State.powerReset, emptied, PortState.reset, resetPower, resetContacts, State.reset]

/-! ## Contact edges still held at a RESTART (log 15) -/

theorem edge_side (i : ClassId) (level : Bool) (s : State) : (s.edge i level).con.pin = s.con.pin ∧
    (s.edge i level).pow = { s.pow with wakeCause := (s.edge i level).pow.wakeCause } ∧
    (s.edge i level).dram = { s.dram with exitReq := (s.edge i level).dram.exitReq } := by
  have hwake : ∀ u : State, (u.wake 2).con = u.con ∧ (u.wake 2).pow = { u.pow with wakeCause := (u.wake 2).pow.wakeCause } ∧
      (u.wake 2).dram = { u.dram with exitReq := (u.wake 2).dram.exitReq } := fun u => by
    unfold State.wake
    split <;> exact ⟨rfl, rfl, rfl⟩
  unfold State.edge
  dsimp only
  split
  · exact ⟨rfl, rfl, rfl⟩
  · split
    · split
      · obtain ⟨h1, h2, h3⟩ := hwake _
        exact ⟨(congrArg Contacts.pin h1).trans rfl, h2, h3⟩
      · exact ⟨rfl, rfl, rfl⟩
    · exact ⟨rfl, rfl, rfl⟩

theorem takeContact_side (e : HeldEvent) (s : State) : (s.takeContact e).con.pin = s.con.pin ∧
    (s.takeContact e).pow = { s.pow with wakeCause := (s.takeContact e).pow.wakeCause } ∧
    (s.takeContact e).dram = { s.dram with exitReq := (s.takeContact e).dram.exitReq } := by
  cases e with
  | contact i level => exact edge_side i level s
  | _ => exact ⟨rfl, rfl, rfl⟩

theorem takeContacts_side (es : List HeldEvent) (s : State) : (es.foldl State.takeContact s).con.pin = s.con.pin ∧
    (es.foldl State.takeContact s).pow = { s.pow with wakeCause := (es.foldl State.takeContact s).pow.wakeCause } ∧
    (es.foldl State.takeContact s).dram = { s.dram with exitReq := (es.foldl State.takeContact s).dram.exitReq } := by
  induction es generalizing s with
  | nil => exact ⟨rfl, rfl, rfl⟩
  | cons e es ih =>
    obtain ⟨h1, h2, h3⟩ := ih (s.takeContact e)
    obtain ⟨k1, k2, k3⟩ := takeContact_side e s
    refine ⟨h1.trans k1, h2.trans ?_, h3.trans ?_⟩
    · rw [k2]; rfl
    · rw [k3]; rfl

/-! ## RESTART (R139, R149, R178, R179) -/

theorem captureHeld_none (h : s.pow.heldEvents = []) : s.captureHeld = s := by simp [State.captureHeld, h]

theorem captureHeld_restart (s : State) : s.captureHeld.pow.restart = s.pow.restart := by
  have h : s.captureHeld.pow = _ := (takeContacts_side s.pow.heldEvents s).2.1
  rw [h]
  rfl

theorem captureHeld_dram (s : State) : s.captureHeld.dram = { s.dram with exitReq := s.captureHeld.dram.exitReq } :=
  (takeContacts_side s.pow.heldEvents s).2.2

/-- The DRAM Controller's values at RESTART, under a profile and the DRAM-held mark. -/
theorem restartDram_eq (s : State) : s.restartDram = { State.reset.dram with
    cells := s.dram.grantCarried, rows := closedRows s.prof.banks
    mode := if s.su.dramHeld then .selfRefresh else .down
    residency := if s.su.dramHeld = true ∧ s.dram.mode = .selfRefresh then s.dram.residency else 0 } := by
  by_cases h : s.su.dramHeld = true
  · by_cases hm : s.dram.mode = .selfRefresh <;> simp [State.restartDram, resetDram, State.reset, h, hm]
  · simp [State.restartDram, resetDram, State.reset, h]

theorem captureHeld_restartDram (s : State) : s.captureHeld.cutOffAll.restartDram = s.restartDram := by
  have hd := captureHeld_dram s
  have hcells : s.captureHeld.dram.grantCarried = s.dram.grantCarried := by rw [hd]; rfl
  have hmode : s.captureHeld.dram.mode = s.dram.mode := by rw [hd]
  have hres : s.captureHeld.dram.residency = s.dram.residency := by rw [hd]
  rw [restartDram_eq, restartDram_eq]
  simp [hcells, hmode, hres]

theorem restart_dram (s : State) : s.restart.dram = s.restartDram := captureHeld_restartDram s

theorem restart_cells (s : State) : s.restart.dram.cells = s.dram.grantCarried := by rw [restart_dram, restartDram_eq]

theorem restart_rows (s : State) : s.restart.dram.rows = closedRows s.prof.banks := by rw [restart_dram, restartDram_eq]

theorem restart_con (s : State) : s.restart.con = s.captureHeld.con := by simp [State.restart]

theorem restart_frame_eq (s : State) : s.restart = { s with
    ports := ⟨emptied s.ports.svp, emptied s.ports.mnp⟩
    ctx := State.reset.ctx
    stg := State.reset.stg
    com := { State.reset.com with sched := startOfRound s.prof }
    flash := { State.reset.flash with cells := s.restart.flash.cells }
    img := State.reset.img
    dram := { State.reset.dram with
      cells := s.restart.dram.cells, rows := s.restart.dram.rows
      mode := if s.su.dramHeld then .selfRefresh else .down
      residency := if s.su.dramHeld = true ∧ s.dram.mode = .selfRefresh then s.dram.residency else 0 }
    pow := { s.pow with
      state := .starting, entryPending := false, wakeCause := none, wakeTimer := none, relapse := 0
      heldEvents := [], heldExit := false }
    con := s.restart.con
    quiet := State.reset.quiet
    mir := State.reset.mir
    su := { State.reset.su with
      supply := .restart, cause := 2, dramHeld := s.su.dramHeld, profState := s.su.profState, release := s.su.release }
    free := s.restart.free } := by
  refine State.eq_of_fields (by simp) ?_ rfl rfl ?_ (Flash.eq_of_fields rfl rfl rfl rfl rfl rfl rfl rfl) rfl (by simp) ?_ ?_ rfl rfl rfl ?_ (by simp) rfl
  · simp [State.restart, emptied, PortState.reset]
  · simp [State.restart, State.reset, resetCommit]
  · rw [restart_cells, restart_rows, restart_dram, restartDram_eq]
  · refine Eq.trans ?_ (captureHeld_restart s)
    simp [State.restart]
  · simp [State.restart, StartUp.restart, State.reset, resetStartUp]

/-! ## The grant in progress at a RESTART (R139) -/

theorem grantCarried_source {r : Source} {q : DramReq} (h : s.dram.grant = some (.source r q)) : s.dram.grantCarried = cellsAfter s.dram.cells q := by
  simp only [Dram.grantCarried, h]

theorem grantCarried_writeBack {off : Nat} (h : s.dram.grant = some (.writeBack off)) : s.dram.grantCarried = writeBackCells s.dram.cells off := by
  simp only [Dram.grantCarried, h]

theorem restart_reads (h : s.dram.grant = none ∨ (∃ r off len, s.dram.grant = some (.source r (.read off len))) ∨
    ∃ off, s.dram.grant = some (.patrol off)) : s.restart.dram.cells = s.dram.cells := by
  rw [restart_cells]
  rcases h with h | ⟨r, off, len, h⟩ | ⟨off, h⟩ <;> simp only [Dram.grantCarried, h, cellsAfter]

theorem restart_rmw {r : Source} {off : Nat} {w : Word} {en : BitVec 4} (h : s.dram.grant = some (.source r (.rmw off w en)))
    (hm : s.memoryWf = true) :
    (∀ a, a ≠ off → readCell dramDefault s.restart.dram.cells a = readCell dramDefault s.dram.cells a) ∧
    ((readCode (readCell dramDefault s.dram.cells off)).bad = false → readCell dramDefault s.restart.dram.cells off =
      encodeWord (mergeWord (readCode (readCell dramDefault s.dram.cells off)).word w en)) ∧
    ((readCode (readCell dramDefault s.dram.cells off)).bad = true → s.restart.dram.cells = s.dram.cells) := by
  rw [restart_cells, grantCarried_source h]
  have hwf := ((State.memoryWf_iff s).mp hm).1
  refine ⟨fun a ha => cellsAfter_outside s.dram.cells (.rmw off w en) a (by simp only [DramReq.span]; omega), fun hu => ?_,
    fun hb => cellsAfter_rmw_bad w en hb⟩
  rw [cellsAfter_rmw_usable w en hu, readCell_writeDram_inside _ off _ off hwf (Nat.le_refl _) (by simp)]
  simp [wordAt]

theorem restart_writeBack {off : Nat} (h : s.dram.grant = some (.writeBack off)) (hm : s.memoryWf = true) :
    (∀ a, a ≠ off → readCell dramDefault s.restart.dram.cells a = readCell dramDefault s.dram.cells a) ∧
    (∀ w, readCode (readCell dramDefault s.dram.cells off) = .corrected w → readCell dramDefault s.restart.dram.cells off = encodeWord w) ∧
    ((∀ w, readCode (readCell dramDefault s.dram.cells off) ≠ .corrected w) → s.restart.dram.cells = s.dram.cells) := by
  have hcells : s.restart.dram.cells = writeBackCells s.dram.cells off := (restart_cells s).trans (grantCarried_writeBack h)
  refine ⟨fun a ha => ?_, fun w hw => ?_, fun hn => hcells.trans (writeBackCells_kept hn)⟩
  · by_cases hw : ∃ w, readCode (readCell dramDefault s.dram.cells off) = .corrected w
    · obtain ⟨w, hw⟩ := hw
      exact (writeDram_inside hm (hcells.trans (writeBackCells_corrected hw))).2 a (by simp; omega)
    · rw [hcells, writeBackCells_kept (not_exists.mp hw)]
  · have hin := (writeDram_inside hm (hcells.trans (writeBackCells_corrected hw))).1 off (Nat.le_refl _) (by simp)
    rw [hin]
    simp [wordAt]

/-! ## The end of a reset (R104, R122) -/

theorem unstallAll_empty {x : PortState} (h : x.queue = []) : x.unstallAll = { x with queue := x.bus.take 4, bus := x.bus.drop 4 } := by
  obtain ⟨queue, carry, bus, answers⟩ := x
  subst h
  rcases bus with _ | ⟨a, _ | ⟨b, _ | ⟨c, _ | ⟨d, more⟩⟩⟩⟩ <;> simp [PortState.unstallAll, PortState.unstall]

theorem beginStartUp_eq (strap : Bool) (hs : s.ports.svp.queue = []) (hm : s.ports.mnp.queue = []) : s.beginStartUp strap = { s with
    ports := ⟨{ s.ports.svp with queue := s.ports.svp.bus.take 4, bus := s.ports.svp.bus.drop 4 },
      { s.ports.mnp with queue := s.ports.mnp.bus.take 4, bus := s.ports.mnp.bus.drop 4 }⟩
    pow := { s.pow with coarse := false }
    su := { s.su with supply := .running, strap := strap, phase := .profile }
    flash := { s.flash with startup := [.suProfile] } } := by
  rw [State.beginStartUp, unstallAll_empty hs, unstallAll_empty hm]

/-- Settles O57. -/
theorem resetsTakeEachBlock : Obligations.ResetsTakeEachBlock := by
  unfold Obligations.ResetsTakeEachBlock
  intro s
  refine ⟨⟨_, rfl, powerReset_poweredOn .powerOnReset s, flashCutOff (v := s) rfl rfl rfl⟩,
    ⟨_, rfl, powerReset_poweredOn .off s, flashCutOff (v := s) rfl rfl rfl⟩, fun hsup => ?_, fun hsup => congrArg Host.Outcome.next (if_neg hsup),
    fun strap hqs hqm => ?_⟩
  · refine ⟨s.restart, congrArg Host.Outcome.next (if_pos hsup), flashCutOff (v := s.captureHeld) (by simp) (by simp) rfl, restart_frame_eq s,
      restart_rows s ▸ closedRows_allClosed s.prof, rfl, rfl, ?_, fun h => ?_, restart_reads, fun r off ws h hm => ?_, fun r off w en h hm => restart_rmw h hm,
      fun off h hm => restart_writeBack h hm⟩
    · rw [restart_con]
      exact (takeContacts_side s.pow.heldEvents s).1
    · rw [restart_con, captureHeld_none h]
    · exact writeDram_inside hm ((restart_cells s).trans (grantCarried_source h))
  · intro joined begun
    have hbegun : s.beginStartUp strap = begun := beginStartUp_eq strap hqs hqm
    rw [← hbegun]
    exact ⟨fun h => congrArg Host.Outcome.next (if_pos h), fun h => congrArg Host.Outcome.next (if_pos h)⟩

end Resets
end Sys2Proof.Machine

/-! PROOFS. The mirror's picture and its write (R173 to R176, R196; log 36). -/

namespace Sys2Proof.Machine
open Sys2Proof Sys2Proof.Machine Sys2Proof.Machine.Claims

section Mirror

variable {s u : State}

/-! ## Fields of a word -/

theorem field_mark (lo : Nat) (b : Bool) : field lo 1 (Claims.mark b) = flag lo b := by cases b <;> simp [field, flag, Claims.mark, Nat.one_shiftLeft]

theorem packed_nil : packed [] = 0#32 := rfl

/-! ## The 64 words (R196) -/

theorem classWords_three (s : State) (c : ClassId) :
    s.classWords c = [wordAt (s.classWords c) 0, wordAt (s.classWords c) 1, wordAt (s.classWords c) 2] := by
  unfold State.classWords
  split <;> rfl

theorem resultWords_two (rs : List BurnResult) (j : Nat) : resultWords rs j = [wordAt (resultWords rs j) 0, wordAt (resultWords rs j) 1] := by
  unfold resultWords
  split <;> rfl

/-- The word that shows an attention cause's generation. -/
def AttState.word : AttState → Word
  | .recorded g => g
  | _ => 0#32

/-- The words of a mirror copy, one by one. -/
def State.picture (s : State) : List Word :=
  let cw (c : ClassId) (j : Nat) : Word := wordAt (s.classWords c) j
  let rw_ (j k : Nat) : Word := wordAt (resultWords s.img.results j) k
  [ s.mir.gen,
    BitVec.ofNat 32 (field 0 8 s.pow.state.code + field 8 4 s.su.cause + field 12 4 s.su.profState.code
      + field 16 4 s.su.release + flag 24 s.com.full + flag 25 s.pow.unset),
    lockWord s.lock, s.pow.time.setWidth 32, BitVec.ofNat 32 (s.pow.time.toNat >>> 32),
    cw 0 0, cw 0 1, cw 0 2, cw 1 0, cw 1 1, cw 1 2, cw 2 0, cw 2 1, cw 2 2, cw 3 0, cw 3 1, cw 3 2,
    s.stg.last.svp.c0.getD 0#32, s.stg.last.svp.c1.getD 0#32, s.stg.last.svp.c2.getD 0#32, s.stg.last.svp.c3.getD 0#32,
    s.stg.last.mnp.c0.getD 0#32, s.stg.last.mnp.c1.getD 0#32, s.stg.last.mnp.c2.getD 0#32, s.stg.last.mnp.c3.getD 0#32,
    BitVec.ofNat 32 (presentBits 0 s.stg.last.svp + presentBits 4 s.stg.last.mnp + field 8 4 s.stg.outbox.length + field 16 16 s.stg.lost),
    BitVec.ofNat 32 (field 0 16 s.com.headBlock + field 16 5 s.com.headPage),
    BitVec.ofNat 32 (field 0 16 s.com.tail + field 16 5 s.com.skip.length),
    s.com.oldest.getD 0#32, BitVec.ofNat 32 (field 0 16 s.com.ahead + flag 16 s.com.oldest.isNone),
    rw_ 0 0, rw_ 0 1, rw_ 1 0, rw_ 1 1, rw_ 2 0, rw_ 2 1, rw_ 3 0, rw_ 3 1, rw_ 4 0, rw_ 4 1, rw_ 5 0, rw_ 5 1, rw_ 6 0, rw_ 6 1, rw_ 7 0, rw_ 7 1,
    BitVec.ofNat 32 (field 0 16 s.dram.corrected + field 16 16 s.dram.uncorrectable),
    BitVec.ofNat 32 (field 0 16 s.dram.lostRefresh + flag 16 (s.shownLevel 0) + flag 17 (s.shownLevel 1)
      + flag 18 (s.shownLevel 2) + flag 19 (s.shownLevel 3)),
    BitVec.ofNat 32 (field 0 16 s.quiet.count),
    BitVec.ofNat 32 ((List.range 8).map (fun i => flag i (s.mir.attention.get (Fin.ofNat 8 i)).present)).sum,
    s.mir.attention.e0.word, s.mir.attention.e1.word, s.mir.attention.e2.word, s.mir.attention.e3.word,
    s.mir.attention.e4.word, s.mir.attention.e5.word, s.mir.attention.e6.word, s.mir.attention.e7.word,
    0#32, 0#32, 0#32, 0#32, 0#32, s.mir.gen ]

theorem mirrorWords_eq (s : State) : s.mirrorWords = s.picture := by
  have hresults : (List.range 8).flatMap (resultWords s.img.results) = resultWords s.img.results 0 ++ resultWords s.img.results 1 ++
      resultWords s.img.results 2 ++ resultWords s.img.results 3 ++ resultWords s.img.results 4 ++ resultWords s.img.results 5 ++
      resultWords s.img.results 6 ++ resultWords s.img.results 7 := by
    simp [List.range, List.range.loop]
  rw [State.mirrorWords, State.shownClasses, hresults, classWords_three s 0, classWords_three s 1, classWords_three s 2, classWords_three s 3,
    resultWords_two _ 0, resultWords_two _ 1, resultWords_two _ 2, resultWords_two _ 3, resultWords_two _ 4, resultWords_two _ 5,
    resultWords_two _ 6, resultWords_two _ 7]
  rfl

/-! ## What each word shows (R196, log 36) -/

theorem powerState_code (x : PowerState) : [PowerState.starting, .run, .settling, .doze, .roused, .pfDrain, .pfHalt].idxOf x + 1 = x.code := by
  cases x <;> rfl

theorem profileState_code (x : ProfileState) : [ProfileState.loaded, .safe, .pending].idxOf x + 1 = x.code := by cases x <;> rfl

theorem lockWord_packed (l : LockVals) : lockWord l = packed [(0, 1, Claims.mark l.imageProgram), (1, 1, Claims.mark l.imageErase),
    (2, 1, Claims.mark l.bootRewrite), (3, 1, Claims.mark l.journalRetain), (8, 8, l.shieldS), (16, 8, l.shieldE), (24, 5, l.bootEnd)] := by
  simp [lockWord, packed, field_mark, Nat.add_assoc]

theorem classWords_configured {c : ClassId} (h : (s.prof.classes.get c).configured = true) : s.classWords c =
    [(s.stg.rings.get c).next, (s.stg.rings.get c).committed, packed [(0, 13, (s.stg.rings.get c).staged), (16, 13, (s.stg.rings.get c).reserved),
      (31, 1, Claims.mark (s.stg.rings.get c).present)]] := by
  simp [State.classWords, h, packed, field_mark, Nat.add_assoc]

theorem classWords_absent {c : ClassId} (h : (s.prof.classes.get c).configured = false) : s.classWords c = [0#32, 0#32, 0#32] := by
  simp [State.classWords, h]

theorem picture_class (s : State) (c : ClassId) : wordAt s.picture (5 + 3 * c.val) = wordAt (s.classWords c) 0 ∧
    wordAt s.picture (6 + 3 * c.val) = wordAt (s.classWords c) 1 ∧ wordAt s.picture (7 + 3 * c.val) = wordAt (s.classWords c) 2 ∧
    wordAt s.picture (17 + c.val) = ((s.stg.last.get .svp).get c).getD 0#32 ∧
    wordAt s.picture (21 + c.val) = ((s.stg.last.get .mnp).get c).getD 0#32 := by
  match c with
  | 0 | 1 | 2 | 3 => exact ⟨rfl, rfl, rfl, rfl, rfl⟩

theorem picture_showsPart (s : State) : ShowsPart s s.picture := by
  refine ⟨?_, lockWord_packed s.lock, fun c => ?_, ?_, ?_, ?_, rfl, ?_⟩
  · simp only [powerState_code, profileState_code, packed, List.map_cons, List.map_nil, List.sum_cons, List.sum_nil, field_mark, ← Nat.add_assoc]
    rfl
  · obtain ⟨h0, h1, h2, hsvp, hmnp⟩ := picture_class s c
    refine ⟨fun h => ?_, fun h j hj => ?_, hsvp, hmnp⟩
    · rw [h0, h1, h2, classWords_configured h]
      exact ⟨rfl, rfl, rfl⟩
    · rw [classWords_absent h] at h0 h1 h2
      have hcases : j = 0 ∨ j = 1 ∨ j = 2 := by omega
      rcases hcases with rfl | rfl | rfl
      · exact h0
      · rw [show 5 + 3 * c.val + 1 = 6 + 3 * c.val by omega, h1]; rfl
      · rw [show 5 + 3 * c.val + 2 = 7 + 3 * c.val by omega, h2]; rfl
  · have hw : wordAt s.picture 25 = BitVec.ofNat 32 (presentBits 0 s.stg.last.svp + presentBits 4 s.stg.last.mnp +
        field 8 4 s.stg.outbox.length + field 16 16 s.stg.lost) := rfl
    rw [hw]
    simp [packed, field_mark, presentBits, Nat.add_assoc, PerPort.get, Four.get]
  · rfl
  · rfl
  · simp only [packed, List.map_cons, List.map_nil, List.sum_cons, List.sum_nil, field_mark]
    rfl

theorem resultWords_some {rs : List BurnResult} {j : Nat} {r : BurnResult} (h : rs[j]? = some r) :
    resultWords rs j = [packed [(0, 8, r.block), (8, 4, r.code)], packed [(0, 16, r.sum.toNat)]] := by
  have hsum : field 0 16 r.sum.toNat = r.sum.toNat := by
    rw [field_eq, Nat.mod_eq_of_lt r.sum.isLt]
    simp
  simp [resultWords, h, packed, hsum]

theorem resultWords_none {rs : List BurnResult} {j : Nat} (h : rs[j]? = none) : resultWords rs j = [0#32, 0#32] := by simp [resultWords, h]

theorem picture_result (s : State) {j : Nat} (hj : j < 8) : wordAt s.picture (30 + 2 * j) = wordAt (resultWords s.img.results j) 0 ∧
    wordAt s.picture (31 + 2 * j) = wordAt (resultWords s.img.results j) 1 := by
  match j, hj with
  | 0, _ | 1, _ | 2, _ | 3, _ | 4, _ | 5, _ | 6, _ | 7, _ => exact ⟨rfl, rfl⟩

theorem picture_attention (s : State) (i : Fin 8) : wordAt s.picture (50 + i.val) = (s.mir.attention.get i).word  := by
  match i with
  | 0 | 1 | 2 | 3 | 4 | 5 | 6 | 7 => rfl

theorem present_eq (a : AttState) : a.present = decide (a ≠ .absent) := by cases a <;> rfl

theorem shownLevel_eq (s : State) (i : ClassId) :
    s.shownLevel i = (decide ((s.prof.contacts.get i).mode ≠ .off) && s.con.tracked.get i) := by
  unfold State.shownLevel
  cases (s.prof.contacts.get i).mode <;> rfl

theorem picture_showsCounts (s : State) : ShowsCounts s s.mir.attention s.picture := by
  refine ⟨fun j hj => ?_, rfl, ?_, rfl, ?_, fun i => ?_, fun j h1 h2 => ?_⟩
  · obtain ⟨h0, h1⟩ := picture_result s hj
    rw [h0, h1]
    refine ⟨fun r h => ?_, fun h => ?_⟩
    · rw [resultWords_some h]
      exact ⟨rfl, rfl⟩
    · rw [resultWords_none h]
      exact ⟨rfl, rfl⟩
  · have hw : wordAt s.picture 47 = BitVec.ofNat 32 (field 0 16 s.dram.lostRefresh + flag 16 (s.shownLevel 0) + flag 17 (s.shownLevel 1)
        + flag 18 (s.shownLevel 2) + flag 19 (s.shownLevel 3)) := rfl
    rw [hw]
    simp [packed, field_mark, Nat.add_assoc, shownLevel_eq]
  · have hw : wordAt s.picture 49 = BitVec.ofNat 32 ((List.range 8).map (fun i => flag i (s.mir.attention.get (Fin.ofNat 8 i)).present)).sum := rfl
    rw [hw]
    simp [packed, field_mark, present_eq, List.range, List.range.loop]
    rfl
  · rw [picture_attention]
    refine ⟨fun g h => by rw [h]; rfl, fun h => ?_⟩
    cases ha : s.mir.attention.get i with
    | recorded g => exact absurd ha (h g)
    | _ => rfl
  · have hj : j = 58 ∨ j = 59 ∨ j = 60 ∨ j = 61 := by omega
    rcases hj with rfl | rfl | rfl | rfl <;> rfl

/-! ## The write (R174) -/

theorem mirrorWriteStart_eq (hsup : s.su.supply = .running)
    (hp : s.pow.state = .run ∨ s.pow.state = .settling ∨ s.pow.state = .roused ∨ s.pow.state = .pfDrain)
    (hm : s.dram.mode = .usable) (hd : s.mir.dirty = true) (hw : s.mir.write = none) : exec .mirrorWriteStart s = .next
      (({ s.openMirror with mir.write := some { copy := s.openMirror.mirrorWords, k := 0 } } : State).present .mirror
        (s.openMirror.mirrorReq s.openMirror.mirrorWords 0)) := by
  have hgo : (s.clockRuns && s.pow.state != .starting && s.dram.mode == .usable && s.mir.dirty && s.mir.write.isNone) = true := by
    rcases hp with hp | hp | hp | hp <;> simp [State.clockRuns, hsup, hp, hm, hd, hw]
  exact congrArg Host.Outcome.next (if_pos hgo)

theorem openMirror_attention (i : Fin 8) : s.openMirror.mir.attention.get i = (s.mir.attention.get i).record (s.mir.gen + 1#32) := by
  match i with
  | 0 | 1 | 2 | 3 | 4 | 5 | 6 | 7 => rfl

theorem record_other {a : AttState} (g : Seq) (h : a ≠ .waiting) : a.record g = a := by
  cases a with
  | waiting => exact absurd rfl h
  | _ => rfl

theorem mirrorReq_zero (u : State) : u.mirrorReq u.mirrorWords 0 = .write (u.prof.mirrorOffset / 4) [u.mir.gen] := rfl

/-- One request of the mirror's write ends before the last. -/
theorem partRequestGrantEnd_mirror {w : MirrorWrite} {q : DramReq} (hg : s.dram.grant = some (.source .mirror q)) (hw : s.mir.write = some w)
    (hk : w.k < 5) : exec .partRequestGrantEnd s = .next (s.mirrorNext w q) := by
  simp only [exec, execPartRequestGrantEnd, hg, hw, if_pos hk]

theorem mirrorNext_write {w : MirrorWrite} {off : Nat} {ws : List Word} (he : s.dram.entryReq = none) : s.mirrorNext w (.write off ws) = { s with
    dram := { s.dram with
      grant := none, cells := writeDram s.dram.cells off ws
      waiting := s.dram.waiting.set .mirror (some (.write (s.prof.mirrorOffset / 4 + (mirrorSpan (w.k + 1)).1)
        ((w.copy.drop (mirrorSpan (w.k + 1)).1).take (mirrorSpan (w.k + 1)).2))) }
    mir := { s.mir with write := some { w with k := w.k + 1 } } } := by
  rw [State.mirrorNext, carried_write he]
  rfl

theorem mirrorWriteComplete_last {w : MirrorWrite} {off : Nat} {ws : List Word} (hg : s.dram.grant = some (.source .mirror (.write off ws)))
    (hw : s.mir.write = some w) (hk : w.k = 5) (he : s.dram.entryReq = none) : exec .mirrorWriteComplete s = .next { s with
      dram := { s.dram with grant := none, cells := writeDram s.dram.cells off ws }
      mir := { s.mir with write := none, last := some s.mir.gen } } := by
  simp only [exec, execMirrorWriteComplete, hg, hw, if_pos hk, carried_write he]
  rfl

/-- Settles O56. -/
theorem mirrorWriteCarriesOnePicture : Obligations.MirrorWriteCarriesOnePicture := by
  unfold Obligations.MirrorWriteCarriesOnePicture
  refine ⟨fun s hsup hp hm hd hw => ?_, fun s w off ws hw he hm hg => ?_⟩
  · have hpart : ShowsPart s s.openMirror.picture := picture_showsPart s.openMirror
    have hcounts : ShowsCounts s s.openMirror.mir.attention s.openMirror.picture := picture_showsCounts s.openMirror
    rw [← mirrorWords_eq] at hpart hcounts
    refine ⟨_, s.openMirror.mirrorWords, mirrorWriteStart_eq hsup hp hm hd hw, rfl, ?_, ?_, ?_, ?_, ?_, hpart, hcounts, fun i => ?_⟩
    · rw [mirrorWords_eq]; rfl
    · rw [mirrorWords_eq]; rfl
    · rw [mirrorWords_eq]; rfl
    · rw [mirrorWords_eq]; rfl
    · rw [mirrorWords_eq, ← Nat.shiftRight_eq_div_pow]; rfl
    · have ha : s.openMirror.mir.attention.get i = _ := openMirror_attention i
      exact ⟨fun h => ha.trans (by rw [h]; rfl), fun h => ha.trans (record_other _ h)⟩
  · intro stored
    have hcells {t : State} (h : t.dram.cells = writeDram s.dram.cells off ws) : stored t := writeDram_inside hm h
    refine ⟨fun k first count hk hmem => ?_, fun hk => ⟨_, mirrorWriteComplete_last hg hw hk he, hcells rfl, rfl⟩⟩
    have hspan : w.k < 5 ∧ mirrorSpan (w.k + 1) = (first, count) := by
      simp only [List.mem_cons, Prod.mk.injEq, List.not_mem_nil, or_false] at hmem
      rcases hmem with ⟨rfl, rfl, rfl⟩ | ⟨rfl, rfl, rfl⟩ | ⟨rfl, rfl, rfl⟩ | ⟨rfl, rfl, rfl⟩ | ⟨rfl, rfl, rfl⟩ <;> rw [hk] <;> exact ⟨by decide, rfl⟩
    obtain ⟨hlt, hspan⟩ := hspan
    refine ⟨_, (partRequestGrantEnd_mirror hg hw hlt).trans (congrArg Host.Outcome.next (mirrorNext_write he)), hcells rfl, ?_⟩
    rw [hspan, hk]

end Mirror
end Sys2Proof.Machine

/-! PROOFS. Profile, release and the DRAM at start-up (R105 to R107, R137, R148, R150, R169, R181 to R184). -/

namespace Sys2Proof.Machine
open Sys2Proof Sys2Proof.Machine Sys2Proof.Machine.Claims

section StartUp

variable {s v : State}

/-! ## The profile comes into force (R181, R182, R169) -/

theorem shownLevels_ne (a b : State) : a.shownLevels ≠ b.shownLevels ↔ ∃ i, b.shownLevel i ≠ a.shownLevel i := by
  have key : a.shownLevels = b.shownLevels ↔ ∀ i, b.shownLevel i = a.shownLevel i := by
    refine ⟨fun h i => ?_, fun h => congrArg Four.build (funext fun i => (h i).symm)⟩
    have hi := congrArg (fun f : Four Bool => f.get i) h
    simpa [State.shownLevels] using hi.symm
  exact (not_congr key).trans Classical.not_forall

theorem shownClasses_ne (a b : State) : a.shownClasses ≠ b.shownClasses ↔ ∃ c, b.classWords c ≠ a.classWords c := by
  have hlen (u : State) (c : ClassId) : (u.classWords c).length = 3 := by rw [classWords_three]; rfl
  have key : a.shownClasses = b.shownClasses ↔ ∀ c, b.classWords c = a.classWords c := by
    refine ⟨fun h => ?_, fun h => ?_⟩
    · simp only [State.shownClasses] at h
      obtain ⟨h, h3⟩ := List.append_inj h (by simp [hlen])
      obtain ⟨h, h2⟩ := List.append_inj h (by simp [hlen])
      obtain ⟨h0, h1⟩ := List.append_inj h (by simp [hlen])
      exact Four.forall_fin.mpr ⟨h0.symm, h1.symm, h2.symm, h3.symm⟩
    · simp only [State.shownClasses, h]
  exact (not_congr key).trans Classical.not_forall

theorem install_dirty (p : Profile) (k : ProfileState) (s : State) : (s.install p k).mir.dirty = true ↔ s.mir.dirty = true ∨
    s.su.profState ≠ k ∨ (∃ i, (s.install p k).shownLevel i ≠ s.shownLevel i) ∨ ∃ c, (s.install p k).classWords c ≠ s.classWords c := by
  rw [← shownLevels_ne s (s.install p k), ← shownClasses_ne s (s.install p k)]
  have h : (s.install p k).mir.dirty = (s.mir.dirty || decide (s.su.profState ≠ k ∨ s.shownLevels ≠ (s.install p k).shownLevels ∨
      s.shownClasses ≠ (s.install p k).shownClasses)) := rfl
  rw [h, Bool.or_eq_true, decide_eq_true_eq]

theorem install_tracked (p : Profile) (k : ProfileState) (s : State) (i : ClassId) : (s.install p k).con.tracked.get i =
    if (s.prof.contacts.get i).mode = .off ∧ (p.contacts.get i).mode ≠ .off then s.con.pin.get i else s.con.tracked.get i := by
  simp [State.install, State.closeAll, State.markIf, retrack]

theorem loadProfile_valid {p : Profile} (h : parseProfile (flashWords s.flash.cells 0 128) = some p) : s.loadProfile = s.install p .loaded := by
  simp only [State.loadProfile, h]

theorem loadProfile_safe (h : parseProfile (flashWords s.flash.cells 0 128) = none) :
    s.loadProfile = (s.install safeProfile .safe).raise .profile := by
  simp only [State.loadProfile, h]

/-- Block 0 gives a profile and its state. -/
theorem loadProfile_cases (s : State) :
    (∃ p, parseProfile (flashWords s.flash.cells 0 128) = some p ∧ s.loadProfile = s.install p .loaded) ∨
    (parseProfile (flashWords s.flash.cells 0 128) = none ∧ s.loadProfile = (s.install safeProfile .safe).raise .profile) := by
  cases h : parseProfile (flashWords s.flash.cells 0 128) with
  | some p => exact .inl ⟨p, rfl, loadProfile_valid h⟩
  | none => exact .inr ⟨rfl, loadProfile_safe h⟩

theorem loadProfile_frame_eq (s : State) : s.loadProfile = { s with
    con := { s.con with tracked := s.loadProfile.con.tracked }
    prof := s.loadProfile.prof
    com := { s.com with sched := startOfRound s.loadProfile.prof }
    dram := { s.dram with rows := s.loadProfile.dram.rows }
    su := { s.su with profState := s.loadProfile.su.profState }
    mir := { s.mir with dirty := s.loadProfile.mir.dirty, attention := s.loadProfile.mir.attention } } := by
  rcases loadProfile_cases s with ⟨p, -, h⟩ | ⟨-, h⟩ <;> rw [h] <;> rfl

theorem loadProfile_kept (s : State) : s.loadProfile.su.strap = s.su.strap ∧ s.loadProfile.lock = s.lock := by
  rw [loadProfile_frame_eq s]
  exact ⟨rfl, rfl⟩

theorem loadProfile_rows (s : State) : s.loadProfile.dram.rows = closedRows s.loadProfile.prof.banks := by
  rcases loadProfile_cases s with ⟨p, -, h⟩ | ⟨-, h⟩ <;> rw [h] <;> rfl

theorem loadProfile_tracked (s : State) (i : ClassId) : s.loadProfile.con.tracked.get i =
    if (s.prof.contacts.get i).mode = .off ∧ (s.loadProfile.prof.contacts.get i).mode ≠ .off then s.con.pin.get i else s.con.tracked.get i := by
  rcases loadProfile_cases s with ⟨p, -, h⟩ | ⟨-, h⟩ <;> rw [h]
  · exact install_tracked p .loaded s i
  · exact install_tracked safeProfile .safe s i

/-! ## Release and the DRAM phase (R105 to R107, R183, R184) -/

theorem releaseResult_inDramPhase (code : Nat) (v : State) : InDramPhase v (v.releaseResult code) code := by
  unfold InDramPhase State.releaseResult State.beginDram State.markIf
  by_cases h : v.su.dramHeld = true <;> simp [h]

theorem beginRelease_without (h : v.su.strap = false) : v.beginRelease = v.releaseResult 0 := by simp [State.beginRelease, h]

theorem beginRelease_forbidden (h : v.su.strap = true) (hl : v.lock.imageErase = true ∨ v.lock.bootRewrite = true) :
    v.beginRelease = v.releaseResult 2 := by
  simp [State.beginRelease, h, hl]

theorem beginRelease_checks (h : v.su.strap = true) (h1 : v.lock.imageErase = false) (h2 : v.lock.bootRewrite = false) :
    v.beginRelease = { v with su := { v.su with phase := .release }, flash := { v.flash with startup := [.suBlank 1] } } := by
  simp [State.beginRelease, h, h1, h2]

theorem readJobEnd_profile (h : JobAtDevice s .suProfile) : exec .readJobEnd s = .next s.deviceFreed.loadProfile.beginRelease := by
  obtain ⟨hj, hs⟩ := h
  simp only [exec, execReadJobEnd, hj, finishJob_freed hs]

theorem blankCheckEnd_start {b : Nat} (h : JobAtDevice s (.suBlank b)) :
    exec .blankCheckEnd s = .next (s.deviceFreed.startChecked b (blockBlank s.flash.cells b)) := by
  rw [blankCheckEnd_eq h.1, finishJob_freed h.2]

theorem startChecked_release (b : Nat) (blank : Bool) (hp : v.su.phase = .release) : v.startChecked b blank = v.releaseChecked b blank := by
  simp only [State.startChecked, hp]

/-! ## The DRAM comes up (R137, R148, R150) -/

theorem selfRefreshExit_starting (hsup : s.su.supply = .running) (hm : s.dram.mode = .selfRefresh) (h : s.dram.exitReq = true)
    (hp : s.pow.state = .starting) : exec .selfRefreshExit s = .next (s.rewoken.beginMount true) := by
  rw [selfRefreshExit_goes hsup hm h, hp]

theorem coldFillEnd_eq (hsup : s.su.supply = .running) (hm : s.dram.mode = .filling) : exec .coldFillEnd s = .next (s.filled.beginMount false) :=
  congrArg Host.Outcome.next (if_pos (by simp [hsup, hm]))

/-- Settles O58. -/
theorem startUpLoadsReleasesAndBringsUpDram : Obligations.StartUpLoadsReleasesAndBringsUpDram := by
  unfold Obligations.StartUpLoadsReleasesAndBringsUpDram
  refine ⟨fun s h => ⟨s.deviceFreed.loadProfile, _, readJobEnd_profile h, ?_, ?_, fun p hp => ?_, fun hp => ?_, fun i => ?_, fun hs => ?_,
    fun hs hl => ?_, fun hs h1 h2 => ?_⟩, fun s b h hp hm => ?_, fun s hsup => ?_⟩
  · exact loadProfile_frame_eq s.deviceFreed
  · rw [loadProfile_rows]
    exact closedRows_allClosed _
  · rw [loadProfile_valid (s := s.deviceFreed) hp]
    exact ⟨rfl, rfl, rfl, install_dirty p .loaded s.deviceFreed⟩
  · rw [loadProfile_safe (s := s.deviceFreed) hp]
    exact ⟨rfl, rfl, rfl⟩
  · exact loadProfile_tracked s.deviceFreed i
  · rw [beginRelease_without ((loadProfile_kept s.deviceFreed).1.trans hs)]
    exact releaseResult_inDramPhase 0 _
  · rw [beginRelease_forbidden ((loadProfile_kept s.deviceFreed).1.trans hs) (by rw [(loadProfile_kept s.deviceFreed).2]; exact hl)]
    exact releaseResult_inDramPhase 2 _
  · exact beginRelease_checks ((loadProfile_kept s.deviceFreed).1.trans hs) (by rw [(loadProfile_kept s.deviceFreed).2]; exact h1) (by rw [(loadProfile_kept s.deviceFreed).2]; exact h2)
  · intro u blank
    have hblank : blockBlank s.flash.cells b = true ↔ blank := blockBlank_reads (flashWf_of_memoryWf hm)
    rw [blankCheckEnd_start h, startChecked_release (v := s.deviceFreed) b _ hp]
    refine ⟨_, rfl, fun hn => ?_, fun hb hlt => ?_, fun hb hge => ?_⟩
    · rw [State.releaseChecked, if_pos (by simp [mt hblank.mp hn])]
      exact releaseResult_inDramPhase 3 u
    · rw [State.releaseChecked, if_neg (by simp [hblank.mpr hb]), if_pos hlt]
      rfl
    · rw [State.releaseChecked, if_neg (by simp [hblank.mpr hb]), if_neg (by omega)]
      exact releaseResult_inDramPhase 1 _
  · intro mounting
    refine ⟨fun hm => ⟨_, coldFillEnd_eq hsup hm, closedRows_allClosed s.prof, fun a => ?_, rfl⟩,
      fun hm he hp => ⟨_, rfl, selfRefreshExit_starting hsup hm he hp⟩⟩
    rw [readDram_one]
    exact congrArg (fun e => [(a, e)]) (by decide : readCode dramDefault = .clean 0#32)

end StartUp
end Sys2Proof.Machine

/-! PROOFS. Start-up opens (R35, R36, R152, R154, R189). -/

namespace Sys2Proof.Machine
open Sys2Proof Sys2Proof.Machine Sys2Proof.Machine.Claims

section Opening

variable {s v : State} {i : ClassId} {k : Nat}

/-! ## Held captures consumed (R35) -/

theorem firstHeld_none {c : Contacts} (h : c.firstHeld = none) : ∀ i, c.slots.get i = none := by
  unfold Contacts.firstHeld at h
  split at h
  · cases h
  split at h
  · cases h
  split at h
  · cases h
  split at h
  · cases h
  next h0 h1 h2 h3 =>
    exact Four.forall_fin.mpr ⟨by simpa [Four.get] using h0, by simpa [Four.get] using h1, by simpa [Four.get] using h2, by simpa [Four.get] using h3⟩

theorem firstHeld_some {c : Contacts} (h : c.firstHeld = some i) : (∃ x, c.slots.get i = some x) ∧ ∀ j, j < i → c.slots.get j = none := by
  unfold Contacts.firstHeld at h
  split at h
  next h0 =>
    cases h
    exact ⟨Option.isSome_iff_exists.mp h0, fun j hj => absurd hj (by simp)⟩
  split at h
  next h0 h1 =>
    cases h
    refine ⟨Option.isSome_iff_exists.mp h1, Four.forall_fin.mpr ⟨fun _ => by simpa [Four.get] using h0, ?_, ?_, ?_⟩⟩ <;> exact fun hj => absurd hj (by decide)
  split at h
  next h0 h1 h2 =>
    cases h
    refine ⟨Option.isSome_iff_exists.mp h2, Four.forall_fin.mpr ⟨fun _ => by simpa [Four.get] using h0, fun _ => by simpa [Four.get] using h1, ?_, ?_⟩⟩ <;>
      exact fun hj => absurd hj (by decide)
  split at h
  next h0 h1 h2 h3 =>
    cases h
    refine ⟨Option.isSome_iff_exists.mp h3, Four.forall_fin.mpr ⟨fun _ => by simpa [Four.get] using h0, fun _ => by simpa [Four.get] using h1,
      fun _ => by simpa [Four.get] using h2, ?_⟩⟩
    exact fun hj => absurd hj (by decide)
  · cases h

theorem consumeOne_empty (h : ∀ i, v.con.slots.get i = none) : v.consumeOne = v := by
  unfold State.consumeOne
  split
  next j _ => simp [h j]
  next => rfl

/-- One consumption does nothing, or takes the lowest held capture into an outbox with room. -/
theorem consumeOne_cases (v : State) : v.consumeOne = v ∧ (8 ≤ v.stg.outbox.length ∨ ∀ i, v.con.slots.get i = none) ∨
    ∃ i r, v.con.slots.get i ≠ none ∧ (∀ j, j < i → v.con.slots.get j = none) ∧ v.stg.outbox.length < 8 ∧ v.consumeOne = { v with
      con := { v.con with slots := v.con.slots.set i none }
      stg := { v.stg with outbox := v.stg.outbox ++ [r] }
      mir := { v.mir with dirty := true } } := by
  by_cases hl : v.stg.outbox.length < 8
  · cases hf : v.con.firstHeld with
    | none => exact .inl ⟨consumeOne_empty (firstHeld_none hf), .inr (firstHeld_none hf)⟩
    | some i =>
      obtain ⟨⟨x, hx⟩, hn⟩ := firstHeld_some hf
      exact .inr ⟨i, _, by simp [hx], hn, hl, consumeOne_room hx hn hl⟩
  · exact .inl ⟨consumeOne_full (by omega), .inl (by omega)⟩

/-- The slots and the outbox of `v`, in a state that shows `a`. -/
def State.consumedTo (a v : State) : State :=
  { a with con := { a.con with slots := v.con.slots }, stg := { a.stg with outbox := v.stg.outbox } }

theorem consumeOne_consumedTo (h : v.mir.dirty = true) : v.consumeOne = v.consumedTo v.consumeOne := by
  rcases consumeOne_cases v with ⟨he, -⟩ | ⟨i, r, -, -, -, he⟩ <;> rw [he]
  · rfl
  · rw [State.consumedTo, ← h]

theorem consumedTo_trans {a b c : State} (h : b = a.consumedTo b) (hc : c = b.consumedTo c) : c = a.consumedTo c := by
  calc c = b.consumedTo c := hc
    _ = (a.consumedTo b).consumedTo c := congrArg (State.consumedTo · c) h
    _ = a.consumedTo c := rfl

theorem consumeAll_consumedTo (h : v.mir.dirty = true) : v.consumeAll = v.consumedTo v.consumeAll := by
  have step {u : State} (hu : u = v.consumedTo u) : u.consumeOne = v.consumedTo u.consumeOne :=
    consumedTo_trans hu (consumeOne_consumedTo (by rw [hu]; exact h))
  exact step (step (step (step rfl)))

theorem consumeAll_full (h : 8 ≤ v.stg.outbox.length) : v.consumeAll = v := by simp only [State.consumeAll, consumeOne_full h]

theorem consumeAll_empty (h : ∀ i, v.con.slots.get i = none) : v.consumeAll = v := by simp only [State.consumeAll, consumeOne_empty h]

theorem consumeOne_lowest (hn : ∀ j : ClassId, j.val < k → v.con.slots.get j = none) (hl : v.stg.outbox.length < 8) :
    (∀ j : ClassId, j.val < k + 1 → v.consumeOne.con.slots.get j = none) ∧ v.consumeOne.stg.outbox.length ≤ v.stg.outbox.length + 1 := by
  rcases consumeOne_cases v with ⟨he, hfull | hnone⟩ | ⟨i, r, hheld, hlow, -, he⟩
  · omega
  · rw [he]
    exact ⟨fun j _ => hnone j, by omega⟩
  · rw [he]
    refine ⟨fun j hj => ?_, by simp⟩
    by_cases hji : j = i
    · rw [hji]; simp
    · rw [Four.get_set_ne _ _ _ _ hji]
      rcases Nat.lt_or_ge j.val i.val with h | h
      · exact hlow j h
      · have hk : k ≤ i.val := Nat.le_of_not_lt (fun h => hheld (hn i h))
        have hne := Fin.val_ne_of_ne hji
        omega

theorem consumeAll_room (hl : v.stg.outbox.length ≤ 4) : ∀ j, v.consumeAll.con.slots.get j = none := by
  obtain ⟨h1, l1⟩ := consumeOne_lowest (v := v) (k := 0) (fun j hj => absurd hj (by omega)) (by omega)
  obtain ⟨h2, l2⟩ := consumeOne_lowest h1 (by omega)
  obtain ⟨h3, l3⟩ := consumeOne_lowest h2 (by omega)
  obtain ⟨h4, -⟩ := consumeOne_lowest h3 (by omega)
  exact fun j => h4 j j.isLt

/-! ## The START record and the power state (R36, R152, R189) -/

/-- The START record. -/
def State.startRecord (s : State) : Record := partRecord 0xF0#8 true s.stamp s.startPayload

/-- The part with its START record at the front of the outbox. -/
def State.startOffered (s : State) : State := (s.offerFront s.startRecord).raise .start

theorem startOffered_room (h : s.stg.outbox.length < 8) : s.startOffered = { s with
    stg := { s.stg with outbox := s.startRecord :: s.stg.outbox }
    mir := { s.mir with dirty := true, attention := s.mir.attention.set Cause.start.ix .waiting } } := by
  rw [State.startOffered, State.offerFront, if_pos h]
  rfl

theorem startOffered_full (h : 8 ≤ s.stg.outbox.length) : s.startOffered = { s with
    stg := { s.stg with outbox := s.startRecord :: s.stg.outbox.take 7, lost := min 65535 (s.stg.lost + 1) }
    mir := { s.mir with dirty := true, attention := (s.mir.attention.set Cause.lost.ix .waiting).set Cause.start.ix .waiting } } := by
  rw [State.startOffered, State.offerFront, if_neg (by omega)]
  rfl

/-- The part that is READY, still to leave STARTING. -/
def State.readied (s : State) : State :=
  { s.startOffered.consumeAll with
    pow := { s.pow with relapse := 0 }
    su := { s.su with ready := true, phase := .done, recovery := none } }

theorem startOffered_frame_eq (s : State) : s.startOffered = { s with
    stg := { s.stg with outbox := s.startOffered.stg.outbox, lost := s.startOffered.stg.lost }
    mir := { s.mir with dirty := true, attention := s.startOffered.mir.attention } } := by
  rcases Nat.lt_or_ge s.stg.outbox.length 8 with h | h
  · rw [startOffered_room h]
  · rw [startOffered_full h]

theorem startOffered_dirty (s : State) : s.startOffered.mir.dirty = true := by rw [startOffered_frame_eq]

theorem startOffered_consumed (s : State) : s.startOffered.consumeAll = s.startOffered.consumedTo s.startOffered.consumeAll :=
  consumeAll_consumedTo (startOffered_dirty s)

theorem openPhase_eq (s : State) : s.openPhase =
    if s.pow.pfw = true then s.readied.enterPfDrain else s.readied.enterByLpreq := by
  have hpow : s.startOffered.consumeAll.pow = s.pow := by rw [startOffered_consumed, startOffered_frame_eq]; rfl
  have hsu : s.startOffered.consumeAll.su = s.su := by rw [startOffered_consumed, startOffered_frame_eq]; rfl
  rw [State.readied, ← hpow, ← hsu]
  rfl

theorem readied_frame_eq (s : State) : s.readied = { s with
    stg := { s.stg with outbox := s.readied.stg.outbox, lost := s.readied.stg.lost }
    con := { s.con with slots := s.readied.con.slots }
    pow := { s.pow with relapse := 0 }
    su := { s.su with ready := true, phase := .done, recovery := none }
    mir := { s.mir with dirty := true, attention := s.readied.mir.attention } } := by
  have hc := startOffered_consumed s
  rw [startOffered_frame_eq s] at hc
  rw [State.readied, startOffered_frame_eq s, hc]
  rfl

theorem readied_attention (s : State) : s.readied.mir.attention = s.startOffered.mir.attention := by
  have h := congrArg (fun u : State => u.mir.attention) (startOffered_consumed s)
  exact h

theorem startOffered_waiting (s : State) : s.startOffered.mir.attention.get Cause.start.ix = .waiting := raise_waiting .start _

theorem startOffered_causesKept (s : State) : CausesKept s s.startOffered [.start, .lost] ∧
    (s.stg.outbox.length < 8 → CausesKept s s.startOffered [.start]) ∧
    (8 ≤ s.stg.outbox.length → s.startOffered.mir.attention.get Cause.lost.ix = .waiting) := by
  have hroom (h : s.stg.outbox.length < 8) : CausesKept s s.startOffered [.start] := by
    have hraise := raise_causesKept .start (s.offerFront s.startRecord)
    have hfront : (s.offerFront s.startRecord).mir.attention = s.mir.attention := by rw [State.offerFront, if_pos h]
    exact (causesKept_of_eq (cs := []) hfront).trans hraise (by simp)
  have hfull (h : 8 ≤ s.stg.outbox.length) : s.startOffered.mir.attention.get Cause.lost.ix = .waiting ∧
      CausesKept s s.startOffered [.start, .lost] := by
    rw [startOffered_full h]
    refine ⟨?_, fun c hc => ?_⟩
    · exact (Eight.get_set_ne _ _ _ _ (Cause.ix_ne .lost .start (by decide))).trans (by simp)
    · obtain ⟨hs, hl⟩ : c ≠ .start ∧ c ≠ .lost := by simpa using hc
      show ((s.mir.attention.set _ _).set _ _).get _ = _
      rw [Eight.get_set_ne _ _ _ _ (Cause.ix_ne c _ hs), Eight.get_set_ne _ _ _ _ (Cause.ix_ne c _ hl)]
  refine ⟨?_, hroom, fun h => (hfull h).1⟩
  rcases Nat.lt_or_ge s.stg.outbox.length 8 with h | h
  · exact (hroom h).mono (by simp)
  · exact (hfull h).2

theorem opened (s : State) : Opened s s.openPhase := by
  have hatt := readied_attention s
  obtain ⟨hkept, hroom, hfull⟩ := startOffered_causesKept s
  have same {cs : List Cause} (h : CausesKept s s.startOffered cs) : CausesKept s s.readied cs := fun c hc => by rw [hatt]; exact h c hc
  have hpow : s.readied.pow = { s.pow with relapse := 0 } := rfl
  refine ⟨s.readied, readied_frame_eq s, ?_, same hkept, fun h => same (hroom h), fun h => ?_, fun hl hn => ?_, fun hl => ?_, fun hl => ?_,
    fun hp => ?_, fun hp hq => ?_, fun hp hq => ?_⟩
  · rw [hatt]
    exact startOffered_waiting s
  · rw [hatt]
    exact hfull h
  · have hnone : ∀ i, s.startOffered.con.slots.get i = none := fun i => by rw [startOffered_frame_eq]; exact hn i
    rw [State.readied, consumeAll_empty hnone, startOffered_room hl]
    rfl
  · have hlen : 8 ≤ s.startOffered.stg.outbox.length := by rw [startOffered_full hl]; simp; omega
    rw [State.readied, consumeAll_full hlen, startOffered_full hl]
    exact ⟨rfl, rfl⟩
  · exact consumeAll_room (v := s.startOffered) (by rw [startOffered_room (by omega)]; simp; omega)
  · rw [openPhase_eq, if_pos hp]
    exact inDrain _
  · rw [openPhase_eq, if_neg (by simp [hp]), enterByLpreq_settling (s := s.readied) hq]
    exact inSettling _
  · rw [openPhase_eq, if_neg (by simp [hp]), enterByLpreq_run (s := s.readied) hq]
    exact inRun _

end Opening
end Sys2Proof.Machine

/-! PROOFS. What mount leaves of its result while recovery follows and start-up opens (R173, R187 to R189). -/

namespace Sys2Proof.Machine
open Sys2Proof Sys2Proof.Machine Sys2Proof.Machine.Claims

section MountKept

variable {s t v u : State} {c : ClassId}

/-! ## Mount's result on the commit side -/

/-- The head, the erased-ahead run, the sequences and the ring states of `b` are those of `a`. -/
structure SameMount (a b : State) : Prop where
  headBlock : b.com.headBlock = a.com.headBlock
  headPage : b.com.headPage = a.com.headPage
  nextPage : b.com.nextPage = a.com.nextPage
  ahead : b.com.ahead = a.com.ahead
  oldest : b.com.oldest = a.com.oldest
  placed : a.com.held = none → b.com.placedSeq = a.com.placedSeq ∧ b.com.placedPresent = a.com.placedPresent
  rings : ∀ c, (b.stg.rings.get c).committed = (a.stg.rings.get c).committed ∧ (b.stg.rings.get c).present = (a.stg.rings.get c).present

theorem SameMount.of_eq (hc : t.com = s.com) (hr : t.stg.rings = s.stg.rings) : SameMount s t := by
  constructor <;> simp [hc, hr]

theorem SameMount.after_eq (h : SameMount v t) (hc : v.com = s.com) (hr : v.stg.rings = s.stg.rings) : SameMount s t := by
  obtain ⟨h1, h2, h3, h4, h5, h6, h7⟩ := h
  rw [hc] at h1 h2 h3 h4 h5 h6
  rw [hr] at h7
  exact ⟨h1, h2, h3, h4, h5, h6, h7⟩

theorem Commit.refill_kept (d : Commit) : d.refill.held = d.held ∧ d.refill.placedSeq = d.placedSeq ∧ d.refill.placedPresent = d.placedPresent := by
  rcases Commit.refill_cases d with h | ⟨-, -, h⟩ <;> rw [h] <;> exact ⟨rfl, rfl, rfl⟩

theorem Commit.close_kept (k : CloseCause) (d : Commit) :
    (d.close k).held = d.held ∧ (d.close k).placedSeq = d.placedSeq ∧ (d.close k).placedPresent = d.placedPresent := by
  unfold Commit.close
  split <;> exact ⟨rfl, rfl, rfl⟩

/-- With no candidate held settling places none. -/
theorem settledCom_placed (h : v.com.held = none) :
    v.settledCom.placedSeq = v.com.placedSeq ∧ v.settledCom.placedPresent = v.com.placedPresent := by
  obtain ⟨hh, hs, hp⟩ := Commit.refill_kept v.com
  have hcl := Commit.close_kept .drain v.com.refill
  have hheld : (v.com.refill.close .drain).held = none := hcl.1.trans (hh.trans h)
  have hre := Commit.refill_kept (v.com.refill.close .drain)
  unfold State.settledCom
  dsimp only
  rw [Commit.turnOver_unheld _ h]
  split
  · rw [Commit.turnOver_unheld _ hheld]
    exact ⟨hre.2.1.trans (hcl.2.1.trans hs), hre.2.2.trans (hcl.2.2.trans hp)⟩
  · exact ⟨hs, hp⟩

theorem settle_sameMount (v : State) : SameMount v v.settle := by
  have hhead := settledCom_sameHead v
  have hrings : v.settle.stg.rings = v.stg.rings := by simp
  refine ⟨?_, ?_, ?_, ?_, ?_, fun h => ?_, fun c => by rw [hrings]; exact ⟨rfl, rfl⟩⟩
  all_goals rw [settle_com]
  · exact hhead.headBlock
  · exact hhead.headPage
  · exact hhead.nextPage
  · exact hhead.ahead
  · exact hhead.oldest
  · exact settledCom_placed h

/-- Settling after an entry that released reservations. -/
theorem SameMount.settles (hc : v.com = s.com) {ps : List Port} (hr : Released s v ps) : SameMount s v.settle := by
  obtain ⟨h1, h2, h3, h4, h5, h6, h7⟩ := settle_sameMount v
  rw [hc] at h1 h2 h3 h4 h5 h6
  refine ⟨h1, h2, h3, h4, h5, h6, fun c => ?_⟩
  obtain ⟨h8, h9⟩ := h7 c
  rw [hr c] at h8 h9
  exact ⟨h8, h9⟩

/-! ## Entries from STARTING (R152) -/

theorem enterRun_sameMount (s : State) : SameMount s s.enterRun ∧ s.enterRun.mir.dirty = true := by
  have he : s.enterRun = s.toRun.resumeBurn.settle := rfl
  rw [he]
  refine ⟨(settle_sameMount s.toRun.resumeBurn).after_eq (by simp [State.toRun]) (by simp [State.toRun]), settle_dirty ?_⟩
  rw [resumeBurn_mir]
  rfl

theorem enterSettling_sameMount (s : State) : SameMount s s.enterSettling ∧ s.enterSettling.mir.dirty = true := by
  rw [enterSettling_eq]
  refine ⟨.settles (by simp [State.toSettling, State.svpAbandoned]) (svpAbandoned_released 4 s rfl), settle_dirty ?_⟩
  simp [State.toSettling, State.setPower]

theorem enterPfDrain_sameMount (s : State) : SameMount s s.enterPfDrain ∧ s.enterPfDrain.mir.dirty = true := by
  rw [enterPfDrain_eq]
  refine ⟨.settles (by simp [State.toDrain, State.setPower]) (drainReported_released s (by simp [State.toDrain, State.setPower])), settle_dirty ?_⟩
  simp [State.toDrain, State.setPower]

theorem openPhase_sameMount (s : State) : SameMount s s.openPhase ∧ s.openPhase.mir.dirty = true := by
  have hframe := readied_frame_eq s
  have hcom : s.readied.com = s.com := by rw [hframe]
  have hrings : s.readied.stg.rings = s.stg.rings := by rw [hframe]
  rw [openPhase_eq]
  by_cases hp : s.pow.pfw = true
  · rw [if_pos hp]
    exact ⟨(enterPfDrain_sameMount _).1.after_eq hcom hrings, (enterPfDrain_sameMount _).2⟩
  · rw [if_neg hp]
    by_cases hl : s.readied.pow.lpreq = true
    · rw [enterByLpreq_settling hl]
      exact ⟨(enterSettling_sameMount _).1.after_eq hcom hrings, (enterSettling_sameMount _).2⟩
    · rw [enterByLpreq_run (by simpa using hl)]
      exact ⟨(enterRun_sameMount _).1.after_eq hcom hrings, (enterRun_sameMount _).2⟩

/-! ## Changes that the mirror shows (R173) -/

/-- Dirty stays set, and a change of what mount finds sets it. -/
def Marks (s t : State) : Prop := (s.mir.dirty = true → t.mir.dirty = true) ∧ HeadMarked s t

theorem Marks.trans (h : Marks s v) (k : Marks v t) : Marks s t := by
  obtain ⟨h1, h2⟩ := h
  obtain ⟨k1, k2⟩ := k
  refine ⟨fun hd => k1 (h1 hd), fun hne => ?_⟩
  by_cases hv : v.mir.dirty = true
  · exact k1 hv
  · have hsame := mt h2 hv
    simp only [not_or, ne_eq, Classical.not_not] at hsame
    obtain ⟨e1, e2, e3, e4, e5⟩ := hsame
    rw [← e1, ← e2, ← e3, ← e4, ← e5] at hne
    exact k2 hne

theorem marks_of_dirty (h : t.mir.dirty = true) : Marks s t := ⟨fun _ => h, fun _ => h⟩

theorem marks_of_eq (hc : t.com = s.com) (hr : t.stg.rings = s.stg.rings) (hm : t.mir.dirty = s.mir.dirty) : Marks s t :=
  ⟨fun h => hm.trans h, fun h => absurd h (by simp [hc, hr])⟩

theorem setHeadBlock_marks (block : Nat) (s : State) : Marks s (s.setHeadBlock block) := by
  by_cases h : s.com.headBlock = block
  · have hs : s.setHeadBlock block = s := by simp [State.setHeadBlock, State.markIf, ← h]
    rw [hs]
    exact marks_of_eq rfl rfl rfl
  · exact marks_of_dirty (by simp [State.setHeadBlock, State.markIf, h])

theorem setHeadPage_marks (page : Nat) (s : State) : Marks s (s.setHeadPage page) := by
  by_cases h : s.com.headPage = page
  · have hs : s.setHeadPage page = s := by simp [State.setHeadPage, State.markIf, ← h]
    rw [hs]
    exact marks_of_eq rfl rfl rfl
  · exact marks_of_dirty (by simp [State.setHeadPage, State.markIf, h])

theorem mountClasses_marks (placed : Four Seq) (mask : Four Bool) (s : State) : Marks s (s.mountClasses placed mask) := by
  by_cases h : s.stg.rings = mountRings s.prof placed mask
  · have hd : (s.mountClasses placed mask).mir.dirty = s.mir.dirty := by simp [State.mountClasses, h]
    refine ⟨fun hs => hd.trans hs, fun hne => absurd hne ?_⟩
    simp [State.mountClasses, ← h]
  · exact marks_of_dirty (by simp [State.mountClasses, h])

/-! ## The end of mount (R187, R188) -/

/-- The part with the oldest retained page sequence known. -/
def State.oldestKnown (s : State) : State := ({ s with com.oldest := s.mountOldest } : State).markIf (decide (s.com.oldest ≠ s.mountOldest))

theorem endMount_eq (s : State) : s.endMount = s.oldestKnown.beginRecovery := rfl

theorem oldestKnown_marks (s : State) : Marks s s.oldestKnown := by
  by_cases h : s.com.oldest = s.mountOldest
  · have hs : s.oldestKnown = s := by simp [State.oldestKnown, State.markIf, ← h]
    rw [hs]
    exact marks_of_eq rfl rfl rfl
  · exact marks_of_dirty (by simp [State.oldestKnown, State.markIf, h])

theorem beginRecovery_warm (h : v.su.warm = true) :
    v.beginRecovery = State.readSlot 0 (v.stg.rings.get 0).next { v with su := { v.su with phase := .recovery } } := if_pos h

theorem beginRecovery_cold (h : v.su.warm = false) : v.beginRecovery = v.openPhase := if_neg (by simp [h])

theorem beginRecovery_sameMount (v : State) : SameMount v v.beginRecovery ∧ Marks v v.beginRecovery := by
  by_cases h : v.su.warm = true
  · rw [beginRecovery_warm h]
    exact ⟨.of_eq rfl rfl, marks_of_eq rfl rfl rfl⟩
  · rw [beginRecovery_cold (by simpa using h)]
    exact ⟨(openPhase_sameMount v).1, marks_of_dirty (openPhase_sameMount v).2⟩

theorem endMount_mountEnds (v : State) : MountEnds v v.endMount := by
  refine ⟨fun h => beginRecovery_warm (v := v.oldestKnown) h, fun h => ?_⟩
  rw [endMount_eq, beginRecovery_cold (v := v.oldestKnown) h]
  exact opened v.oldestKnown

theorem endMount_oldest (v : State) : v.endMount.com.oldest = v.mountOldest := by
  rw [endMount_eq, (beginRecovery_sameMount v.oldestKnown).1.oldest]
  rfl

theorem endMount_ahead (v : State) : v.endMount.com.ahead = v.com.ahead := by
  rw [endMount_eq, (beginRecovery_sameMount v.oldestKnown).1.ahead]
  rfl

theorem endMount_marks (v : State) : Marks v v.endMount := (oldestKnown_marks v).trans (beginRecovery_sameMount v.oldestKnown).2

/-! ## The erased-ahead run (R187) -/

/-- The part at the stage of mount that brings the run up. -/
def State.spared (s : State) : State := { s with su := { s.su with mount := { s.su.mount with stage := .spare } } }

theorem growRun_grows (h : s.com.ahead < s.prof.spareTarget) (he : s.su.mount.classAt s.nextAhead = .erased) :
    s.growRun = { s.spared with flash := { s.flash with startup := [.suBlank s.nextAhead] } } := if_pos ⟨h, he⟩

theorem growRun_ends (h : s.prof.spareTarget ≤ s.com.ahead ∨ s.su.mount.classAt s.nextAhead ≠ .erased) : s.growRun = s.spared.endMount :=
  if_neg (fun hn => h.elim (Nat.not_le_of_lt hn.1) (fun hne => hne hn.2))

theorem growRun_runGrows (s : State) : RunGrows s.spared s.growRun :=
  ⟨fun h he => growRun_grows h he, fun h => growRun_ends (s := s) h ▸ endMount_mountEnds s.spared⟩

/-- Besides the oldest page sequence, growing the run leaves what mount found. -/
theorem growRun_kept (s : State) : s.growRun.com.headBlock = s.com.headBlock ∧ s.growRun.com.headPage = s.com.headPage ∧
    s.growRun.com.nextPage = s.com.nextPage ∧ s.growRun.com.ahead = s.com.ahead ∧
    (s.com.held = none → s.growRun.com.placedSeq = s.com.placedSeq ∧ s.growRun.com.placedPresent = s.com.placedPresent) ∧
    (∀ c, (s.growRun.stg.rings.get c).committed = (s.stg.rings.get c).committed ∧
      (s.growRun.stg.rings.get c).present = (s.stg.rings.get c).present) ∧ Marks s s.growRun := by
  by_cases h : s.com.ahead < s.prof.spareTarget ∧ s.su.mount.classAt s.nextAhead = .erased
  · rw [growRun_grows h.1 h.2]
    exact ⟨rfl, rfl, rfl, rfl, fun _ => ⟨rfl, rfl⟩, fun _ => ⟨rfl, rfl⟩, marks_of_eq rfl rfl rfl⟩
  · have hend : s.growRun = s.spared.endMount := if_neg h
    have hs := (beginRecovery_sameMount s.spared.oldestKnown).1
    have hm : Marks s s.spared.endMount := Marks.trans (v := s.spared) (marks_of_eq rfl rfl rfl) (endMount_marks s.spared)
    rw [hend]
    exact ⟨hs.headBlock, hs.headPage, hs.nextPage, hs.ahead, hs.placed, hs.rings, hm⟩

end MountKept
end Sys2Proof.Machine

/-! PROOFS. Mount finds the head (R185 to R187, R191). -/

namespace Sys2Proof.Machine
open Sys2Proof Sys2Proof.Machine Sys2Proof.Machine.Claims

section Mount

variable {s v : State} {b page : Nat}

/-! ## The newest lead (R186) -/

theorem newestLead_none {seen : List (Nat × PageClass)} (h : ∀ x ∈ seen, ∀ y, x.2 ≠ .valid y) : newestLead seen none = none := by
  induction seen with
  | nil => rfl
  | cons x seen ih =>
    obtain ⟨c, k⟩ := x
    have htail := ih (fun y hy => h y (List.mem_cons_of_mem _ hy))
    cases k with
    | valid y => exact absurd rfl (h (c, .valid y) List.mem_cons_self y)
    | _ => exact htail

/-! ## The pages of the head block (R186) -/

theorem scanPages_append (as bs : List PageClass) (i : Nat) (x : HeadScan) :
    scanPages i (as ++ bs) x = scanPages (i + as.length) bs (scanPages i as x) := by
  induction as generalizing i x with
  | nil => rfl
  | cons a as ih =>
    rw [List.cons_append, scanPages, ih, scanPages, List.length_cons]
    congr 1
    omega

/-- The pages after the last valid one: each that is neither valid nor erased counts, and the head page follows the last of them. -/
theorem scanPages_after (after : List PageClass) {used : Nat} (hv : ∀ x ∈ after, ∀ y, x ≠ .valid y) (hu : used ≤ after.length)
    (he : ∀ x ∈ after.drop used, x = .erased) (hl : ∀ x, (after.take used).getLast? = some x → x ≠ .erased) (i : Nat) (x : HeadScan) :
    scanPages i after x = { last := x.last, torn := x.torn + (after.filter (fun k => decide (k = .neither))).length,
                            head := if used = 0 then x.head else i + used } := by
  induction after generalizing used i x with
  | nil =>
    have h0 : used = 0 := by simpa using hu
    simp [scanPages, h0]
  | cons a after ih =>
    have hv' : ∀ x ∈ after, ∀ y, x ≠ .valid y := fun y hy => hv y (List.mem_cons_of_mem _ hy)
    cases used with
    | zero =>
      have ha : a = .erased := he a (by simp)
      have htail := ih (used := 0) hv' (Nat.zero_le _) (fun y hy => he y (by simpa using Or.inr (by simpa using hy))) (by simp) (i + 1) x
      subst ha
      rw [scanPages]
      exact htail.trans (by simp)
    | succ n =>
      have hn : n ≤ after.length := by simpa using hu
      have he' : ∀ y ∈ after.drop n, y = .erased := by simpa using he
      cases hcut : after.take n with
      | nil =>
        have h0 : n = 0 := by
          have hlen := congrArg List.length hcut
          simp at hlen
          rcases hlen with h | h
          · exact h
          · rw [h] at hn
            simpa using hn
        subst h0
        have hne : a ≠ .erased := hl a (by simp)
        have ha : a = .neither := by
          cases a with
          | erased => exact absurd rfl hne
          | valid y => exact absurd rfl (hv _ List.mem_cons_self y)
          | neither => rfl
        subst ha
        rw [scanPages, ih (used := 0) hv' (Nat.zero_le _) he' (by simp)]
        simp [HeadScan.page]
        omega
      | cons k ks =>
        have hpos : n ≠ 0 := by
          rintro rfl
          simp at hcut
        have hl' : ∀ y, (after.take n).getLast? = some y → y ≠ .erased := fun y hy => hl y (by
          rw [List.take_succ_cons, hcut, List.getLast?_cons_cons, ← hcut]
          exact hy)
        have htail := ih hv' hn he' hl' (i + 1) (x.page i a)
        rw [scanPages, htail, if_neg hpos, if_neg (by omega)]
        cases a with
        | erased => simp [HeadScan.page]; omega
        | valid y => exact absurd rfl (hv _ List.mem_cons_self y)
        | neither => simp [HeadScan.page]; omega

theorem scanPages_valid {before after : List PageClass} {h : PageHeader} {used : Nat} (hv : ∀ x ∈ after, ∀ y, x ≠ .valid y)
    (hu : used ≤ after.length) (he : ∀ x ∈ after.drop used, x = .erased) (hl : ∀ x, (after.take used).getLast? = some x → x ≠ .erased) (x : HeadScan) :
    scanPages 0 (before ++ .valid h :: after) x = { last := some h, torn := (after.filter (fun k => decide (k = .neither))).length,
                                                    head := before.length + 1 + used } := by
  rw [scanPages_append, scanPages, scanPages_after after hv hu he hl]
  simp only [HeadScan.page, Nat.zero_add]
  by_cases h0 : used = 0 <;> simp [h0]

/-! ## Page 0 of each block (R185, R186) -/

theorem readJobEnd_page (h : JobAtDevice s (.suPage b page)) :
    exec .readJobEnd s = .next (s.deviceFreed.mountRead b page (classifyPage (flashPage s.flash.cells b page))) := by
  obtain ⟨hj, hs⟩ := h
  simp only [exec, execReadJobEnd, hj, finishJob_freed hs]

theorem mountRead_leads {k : PageClass} (h : v.su.mount.stage = .leads) : v.mountRead b page k = v.mountLead b k := by
  simp only [State.mountRead, h]

theorem mountRead_pages {k : PageClass} (h : v.su.mount.stage = .pages) : v.mountRead b page k = v.mountPage b page k := by
  simp only [State.mountRead, h]

/-- The leads seen once a block's page 0 is classified. -/
def Mount.seenWith (b : Nat) (k : PageClass) (m : Mount) : List (Nat × PageClass) := if k = .erased then m.seen else m.seen ++ [(b, k)]

/-- The part with one more lead seen. -/
def State.leadSeen (b : Nat) (k : PageClass) (s : State) : State :=
  { s with su := { s.su with mount := { s.su.mount with seen := s.su.mount.seenWith b k } } }

theorem mountLead_eq (b : Nat) (k : PageClass) (s : State) : s.mountLead b k =
    if b < 2047 then { s.leadSeen b k with flash := { s.flash with startup := [.suPage (b + 1) 0] } } else (s.leadSeen b k).mountLeadsDone := by
  have hseen : (if k = .erased then s else { s with su := { s.su with mount := { s.su.mount with seen := s.su.mount.seen ++ [(b, k)] } } }) =
      s.leadSeen b k := by
    by_cases hk : k = .erased <;> simp [State.leadSeen, Mount.seenWith, hk]
  rw [State.mountLead, hseen]
  rfl

theorem mountLeadsDone_head {head : Nat} {lead : Seq} (h : newestLead v.su.mount.seen none = some (head, lead)) :
    v.mountLeadsDone = v.mountHead head := by
  simp only [State.mountLeadsDone, h]

theorem mountLeadsDone_empty (h : newestLead v.su.mount.seen none = none) : v.mountLeadsDone = v.mountEmpty := by
  simp only [State.mountLeadsDone, h]

theorem mountEmpty_marks (v : State) : Marks v v.mountEmpty := by
  refine ((mountClasses_marks (Four.const 0#32) (Four.const false) v).trans (setHeadBlock_marks 256 _)).trans ⟨fun h => h, fun h => ?_⟩
  rcases h with h | h | h | h | h <;> exact absurd rfl h

theorem mountRings_get (p : Profile) (placed : Four Seq) (mask : Four Bool) (c : ClassId) : (mountRings p placed mask).get c =
    if (p.classes.get c).configured = true then
      ⟨if mask.get c = true then placed.get c + 1#32 else 0#32, placed.get c, mask.get c, 0, 0⟩
    else ⟨0#32, 0#32, false, 0, 0⟩ := by
  simp [mountRings, ClassRing.firstUncommitted, emptyRing]

theorem mountEmpty_rings (v : State) (c : ClassId) : (v.mountEmpty.stg.rings.get c).present = false ∧
    (v.mountEmpty.stg.rings.get c).committed = 0#32 ∧ (v.mountEmpty.stg.rings.get c).next = 0#32 := by
  have hr : v.mountEmpty.stg.rings.get c = (mountRings v.prof (Four.const 0#32) (Four.const false)).get c := rfl
  rw [hr, mountRings_get]
  split <;> simp

/-! ## Pages 1 to 15 of the head block (R186) -/

/-- The part with one more page of the head block seen. -/
def State.pageSeen (k : PageClass) (s : State) : State :=
  { s with su := { s.su with mount := { s.su.mount with pages := s.su.mount.pages ++ [k] } } }

theorem mountPage_more (k : PageClass) (h : page < 15) : s.mountPage b page k =
    { s.pageSeen k with flash := { s.flash with startup := [.suPage b (page + 1)] } } := if_pos h

theorem mountPage_done (k : PageClass) (h : 15 ≤ page) : s.mountPage b page k = (s.pageSeen k).mountPagesDone := if_neg (by omega)

/-- The part with the head page and the sequences that a scan found. -/
def State.headFound (h : PageHeader) (torn head : Nat) (v : State) : State :=
  let w := (v.mountClasses h.placed h.mask).setHeadPage head
  { w with com := { w.com with nextPage := h.seq + 1#32 + BitVec.ofNat 32 torn } }

theorem mountPagesDone_eq {h : PageHeader} {torn head : Nat}
    (hx : scanPages 0 v.su.mount.pages { last := none, torn := 0, head := 0 } = { last := some h, torn := torn, head := head }) :
    v.mountPagesDone = (v.headFound h torn head).growRun := by
  simp only [State.mountPagesDone, hx]
  rfl

theorem headFound_marks (h : PageHeader) (torn head : Nat) (v : State) : Marks v (v.headFound h torn head) := by
  refine ((mountClasses_marks h.placed h.mask v).trans (setHeadPage_marks head _)).trans ⟨fun h => h, fun h => ?_⟩
  rcases h with h | h | h | h | h <;> exact absurd rfl h

theorem headFound_rings (h : PageHeader) (torn head : Nat) (v : State) : (v.headFound h torn head).stg.rings = mountRings v.prof h.placed h.mask := rfl

/-! ## Blank checks of mount (R187) -/

theorem startChecked_mount (b : Nat) (blank : Bool) (hp : v.su.phase = .mount) : v.startChecked b blank = v.mountChecked blank := by
  simp only [State.startChecked, hp]

theorem growRun_headPage (s : State) : s.growRun.com.headPage = s.com.headPage := by
  obtain ⟨-, h, -⟩ := growRun_kept s
  exact h

theorem growRun_ahead (s : State) : s.growRun.com.ahead = s.com.ahead := by
  obtain ⟨-, -, -, h, -⟩ := growRun_kept s
  exact h

theorem growRun_marks (s : State) : Marks s s.growRun := by
  obtain ⟨-, -, -, -, -, -, h⟩ := growRun_kept s
  exact h

theorem mountChecked_first {blank : Bool} (h : v.su.mount.stage = .first) :
    v.mountChecked blank = (v.setHeadPage (if blank = true then 0 else 16)).growRun := by
  simp only [State.mountChecked, h]

theorem mountChecked_blank (h : v.su.mount.stage = .spare) :
    v.mountChecked true = State.growRun { v with com := { v.com with ahead := v.com.ahead + 1 }, mir := { v.mir with dirty := true } } := by
  simp only [State.mountChecked, h, if_true]

theorem mountChecked_used (h : v.su.mount.stage = .spare) : v.mountChecked false = v.endMount := by
  simp [State.mountChecked, h]

theorem spared_self (h : s.su.mount.stage = .spare) : s.spared = s := by
  simp [State.spared, ← h]

end Mount
end Sys2Proof.Machine

/-! PROOFS. Mount, as one statement (R185 to R187). -/

namespace Sys2Proof.Machine
open Sys2Proof Sys2Proof.Machine Sys2Proof.Machine.Claims

section MountFinds

variable {s t v : State} {b page : Nat}

/-- Mount's changes to a state whose flash device, seen leads or seen pages alone differ from those of `s`. -/
theorem marked_of_same (hc : v.com = s.com) (hr : v.stg = s.stg) (h : Marks v t) : HeadMarked s t := by
  have hh := h.2
  unfold HeadMarked at hh ⊢
  rw [hc, hr] at hh
  exact hh

/-- The last page of the head block has been read. -/
theorem lastPage_found {k : PageClass} {before after : List PageClass} {h : PageHeader} {used : Nat} (hh : s.com.held = none)
    (hx : (s.pageSeen k).su.mount.pages = before ++ .valid h :: after) (hv : ∀ x ∈ after, ∀ y, x ≠ .valid y) (hu : used ≤ after.length)
    (he : ∀ x ∈ after.drop used, x = .erased) (hl : ∀ x, (after.take used).getLast? = some x → x ≠ .erased) :
    let t := (s.pageSeen k).mountPagesDone
    HeadMarked s t ∧ t.com.headPage = before.length + 1 + used ∧
      t.com.nextPage = h.seq + 1#32 + BitVec.ofNat 32 (after.filter (fun x => decide (x = .neither))).length ∧
      t.com.placedSeq = h.placed ∧ t.com.placedPresent = h.mask ∧
      (∀ c, (s.prof.classes.get c).configured = true → (t.stg.rings.get c).committed = h.placed.get c ∧
        (t.stg.rings.get c).present = h.mask.get c) ∧
      ∃ v : State, v = { s with
          stg := { s.stg with rings := v.stg.rings }
          com := { s.com with headPage := t.com.headPage, nextPage := t.com.nextPage, placedSeq := h.placed, placedPresent := h.mask }
          su := { s.su with mount := { s.su.mount with stage := .spare, pages := s.su.mount.pages ++ [k] } }
          mir := { s.mir with dirty := v.mir.dirty } } ∧
        (∀ c, v.stg.rings.get c = if (s.prof.classes.get c).configured = true then
            ⟨if h.mask.get c = true then h.placed.get c + 1#32 else 0#32, h.placed.get c, h.mask.get c, 0, 0⟩
          else ⟨0#32, 0#32, false, 0, 0⟩) ∧
        HeadMarked s v ∧ RunGrows v t := by
  intro t
  have hscan := scanPages_valid (before := before) (h := h) hv hu he hl { last := none, torn := 0, head := 0 }
  rw [← hx] at hscan
  have ht : t = ((s.pageSeen k).headFound h (after.filter (fun x => decide (x = .neither))).length (before.length + 1 + used)).growRun :=
    mountPagesDone_eq hscan
  have hfound := headFound_marks h (after.filter (fun x => decide (x = .neither))).length (before.length + 1 + used) (s.pageSeen k)
  generalize hw : (s.pageSeen k).headFound h (after.filter (fun x => decide (x = .neither))).length (before.length + 1 + used) = w at ht hfound
  obtain ⟨-, hpage, hnext, -, hplaced, hrings, hmarks⟩ := growRun_kept w
  have hwrings : w.stg.rings = mountRings s.prof h.placed h.mask := by rw [← hw]; rfl
  obtain ⟨hseq, hpresent⟩ := hplaced (by rw [← hw]; exact hh)
  rw [ht]
  refine ⟨marked_of_same (v := s.pageSeen k) rfl rfl (hfound.trans hmarks), ?_, ?_, ?_, ?_, fun c hc => ?_, w.spared, ?_, fun c => ?_,
    marked_of_same (v := s.pageSeen k) rfl rfl (hfound.trans (marks_of_eq (t := w.spared) rfl rfl rfl)), growRun_runGrows w⟩
  · rw [hpage, ← hw]; rfl
  · rw [hnext, ← hw]; rfl
  · rw [hseq, ← hw]; rfl
  · rw [hpresent, ← hw]; rfl
  · rw [(hrings c).1, (hrings c).2, hwrings, mountRings_get, if_pos hc]
    exact ⟨rfl, rfl⟩
  · rw [hpage, hnext, ← hw]; rfl
  · have hget : w.spared.stg.rings.get c = (mountRings s.prof h.placed h.mask).get c := congrArg (fun r : Four ClassRing => r.get c) hwrings
    rw [hget, mountRings_get]

/-- A blank check of mount marks what it finds. -/
theorem mountChecked_marked {blank : Bool} (h : s.su.mount.stage = .first ∨ s.su.mount.stage = .spare) :
    HeadMarked s (s.deviceFreed.mountChecked blank) := by
  have hm : Marks s.deviceFreed (s.deviceFreed.mountChecked blank) := by
    rcases h with h | h
    · rw [mountChecked_first (v := s.deviceFreed) h]
      exact (setHeadPage_marks _ _).trans (growRun_marks _)
    · cases blank with
      | true =>
        rw [mountChecked_blank (v := s.deviceFreed) h]
        exact Marks.trans (marks_of_dirty rfl) (growRun_marks _)
      | false =>
        rw [mountChecked_used (v := s.deviceFreed) h]
        exact endMount_marks _
  exact marked_of_same (v := s.deviceFreed) rfl rfl hm

theorem mountChecked_headPage (h : v.su.mount.stage = .first) (blank : Bool) :
    (v.mountChecked blank).com.headPage = if blank = true then 0 else 16 := by
  rw [mountChecked_first h, growRun_headPage]
  rfl

/-- Settles O59. -/
theorem mountFindsTheHead : Obligations.MountFindsTheHead := by
  unfold Obligations.MountFindsTheHead
  refine ⟨fun s b page hjob hheld => ?_, fun x y hx hy more => ⟨rfl, rfl, fun h => ?_, fun h => ?_⟩, fun s b hjob hphase hm => ?_⟩
  · intro k m u seen
    have hseen : seen = (m.seenWith b k) := rfl
    rw [readJobEnd_page hjob]
    refine ⟨fun hs hb => ?_, fun hs hb => ⟨fun head lead hl => ?_, fun hn => ?_⟩, fun hs hp => ?_, fun hs hp before after h used hx hv hu he hl => ?_⟩
    · rw [mountRead_leads (v := s.deviceFreed) hs, mountLead_eq, if_pos hb]
      rfl
    · rw [mountRead_leads (v := s.deviceFreed) hs, mountLead_eq, if_neg (by omega), mountLeadsDone_head (v := s.deviceFreed.leadSeen b k) hl]
      rfl
    · rw [mountRead_leads (v := s.deviceFreed) hs, mountLead_eq, if_neg (by omega),
        mountLeadsDone_empty (v := s.deviceFreed.leadSeen b k) (newestLead_none hn)]
      refine ⟨_, rfl, ?_, rfl, rfl, rfl, rfl, rfl, rfl, mountEmpty_rings _⟩
      exact marked_of_same (v := s.deviceFreed.leadSeen b k) rfl rfl (mountEmpty_marks _)
    · rw [mountRead_pages (v := s.deviceFreed) hs, mountPage_more k hp]
      rfl
    · rw [mountRead_pages (v := s.deviceFreed) hs, mountPage_done k hp]
      exact ⟨_, rfl, lastPage_found (s := s.deviceFreed) (k := k) hheld hx hv hu he hl⟩
  · simp [newestLead, h]
  · simp [newestLead, h]
  · intro blank
    have hblank : blockBlank s.flash.cells b = true ↔ blank := blockBlank_reads (flashWf_of_memoryWf hm)
    have hused (hn : ¬ blank) : blockBlank s.flash.cells b = false := (Bool.not_eq_true _).mp (mt hblank.mp hn)
    rw [blankCheckEnd_start hjob, startChecked_mount (v := s.deviceFreed) b _ hphase]
    refine ⟨_, rfl, fun hs => mountChecked_marked hs, fun hs hb => ?_, fun hs hb => ?_, fun hs hb => ?_, fun hs hb => ?_, ?_⟩
    · rw [hblank.mpr hb]
      exact mountChecked_headPage (v := s.deviceFreed) hs true
    · rw [hused hb]
      exact mountChecked_headPage (v := s.deviceFreed) hs false
    · rw [hblank.mpr hb, mountChecked_blank (v := s.deviceFreed) hs]
      exact growRun_ahead _
    · rw [hused hb, mountChecked_used (v := s.deviceFreed) hs]
      exact ⟨endMount_ahead _, endMount_oldest _⟩
    · intro u headed
      refine ⟨fun hs hb => ?_, fun hs hb => ?_, fun hs hb => ?_, fun hs hb => ?_⟩
      · rw [hblank.mpr hb, mountChecked_first (v := s.deviceFreed) hs]
        exact growRun_runGrows (s.deviceFreed.setHeadPage 0)
      · rw [hused hb, mountChecked_first (v := s.deviceFreed) hs]
        exact growRun_runGrows (s.deviceFreed.setHeadPage 16)
      · rw [hblank.mpr hb, mountChecked_blank (v := s.deviceFreed) hs]
        exact growRun_runGrows { s.deviceFreed with com := { s.com with ahead := s.com.ahead + 1 }, mir := { s.mir with dirty := true } }
      · rw [hused hb, mountChecked_used (v := s.deviceFreed) hs]
        have hu : s.deviceFreed = u := (spared_self (s := s.deviceFreed) hs).symm
        rw [hu]
        exact endMount_mountEnds u

end MountFinds
end Sys2Proof.Machine

/-! PROOFS. Recovery, then OPEN (R136, R187 to R189). -/

namespace Sys2Proof.Machine
open Sys2Proof Sys2Proof.Machine Sys2Proof.Machine.Claims

section Recovery

variable {s t u v : State} {c d : ClassId} {q : Seq} {off : Nat}

/-! ## The next configured class (R188) -/

theorem nextClass_following {p : Profile} (hlt : c < d) (hd : (p.classes.get d).configured = true)
    (hn : ∀ j, c < j → j < d → (p.classes.get j).configured = false) : nextClass p c = (d, false) := by
  rcases nextClass_spec p c with ⟨h1, h2, h3, h4⟩ | ⟨h1, -, -⟩
  · have hsame : (nextClass p c).1 = d := by
      rcases Nat.lt_trichotomy (nextClass p c).1.val d.val with h | h | h
      · exact absurd h2 (by simp [hn _ h1 h])
      · exact Fin.ext h
      · exact absurd hd (by simp [h3 d hlt h])
    exact Prod.ext hsame h4
  · exact absurd hd (by simp [h1 d hlt])

theorem nextClass_last {p : Profile} (hn : ∀ j, c < j → (p.classes.get j).configured = false) : nextClass p c = (0, true) := by
  rcases nextClass_spec p c with ⟨h1, h2, -, -⟩ | ⟨-, h1, h2⟩
  · exact absurd h2 (by simp [hn _ h1])
  · exact Prod.ext h1 h2

theorem recoverAfter_following (hp : v.prof = s.prof) (hlt : c < d) (hd : (s.prof.classes.get d).configured = true)
    (hn : ∀ j, c < j → j < d → (s.prof.classes.get j).configured = false) : v.recoverAfter c = v.readSlot d (v.stg.rings.get d).next := by
  simp only [State.recoverAfter, hp, nextClass_following hlt hd hn]
  rfl

theorem recoverAfter_last (hp : v.prof = s.prof) (hn : ∀ j, c < j → (s.prof.classes.get j).configured = false) :
    v.recoverAfter c = v.openPhase := by
  simp only [State.recoverAfter, hp, nextClass_last hn]
  rfl

/-! ## The recovery read (R136, R188) -/

/-- The part once a recovery read's words have been counted and a fault reported. -/
def State.recoveryRead (off : Nat) (s : State) : State :=
  (State.eccRead true (readDram s.dram.cells off 16) { s with dram := { s.dram with grant := none } }).faultRecord 3 (readDram s.dram.cells off 16)

theorem recoveryReadComplete_eq (hg : s.dram.grant = some (.source .stager (.read off 16))) (hr : s.su.recovery = some ⟨c, q⟩)
    (he : s.dram.entryReq = none) : exec .recoveryReadComplete s =
      .next ((s.recoveryRead off).recoverSlot c q (slotAccepted (readDram s.dram.cells off 16) q)) := by
  simp only [exec, execRecoveryReadComplete, hg, hr, carried_eq _ (.inl he)]
  rfl

/-- All that a recovery read does before its record is judged. -/
theorem recoveryRead_does (off : Nat) (s : State) :
    let rs := readDram s.dram.cells off 16
    let u := s.recoveryRead off
    u = { s with
        stg := { s.stg with outbox := u.stg.outbox, lost := u.stg.lost }
        dram := { s.dram with
          grant := none, corrected := u.dram.corrected, uncorrectable := u.dram.uncorrectable
          correction := correctionsAfter s.dram.correction rs }
        mir := { s.mir with dirty := u.mir.dirty, attention := u.mir.attention } } ∧
      (s.dram.corrected ≤ 65535 → u.dram.corrected = min 65535 (s.dram.corrected + correctedCount rs)) ∧
      ((∀ x ∈ rs, ∃ w, x.2 = .clean w) → u = { s with dram := { s.dram with grant := none } }) ∧
      ((∀ x ∈ rs, x.2.bad = false) → u.stg = s.stg ∧ u.mir.attention = s.mir.attention ∧ u.dram.uncorrectable = s.dram.uncorrectable) ∧
      (∀ at_ syn, firstBad rs = some (at_, syn) → slotAccepted rs q = false ∧
        u.mir.attention.get Cause.fault.ix = .waiting ∧ u.mir.dirty = true ∧
        (s.dram.uncorrectable ≤ 65535 → u.dram.uncorrectable = min 65535 (s.dram.uncorrectable + badCount rs)) ∧
        Offered s u (partRecord 0xF2#8 false s.stamp [BitVec.ofNat 32 (at_ * 4), 3#32, BitVec.ofNat 32 syn.toNat]) [.fault]) := by
  intro rs u
  have hclean (h : ∀ x ∈ rs, ∃ w, x.2 = .clean w) : u = { s with dram := { s.dram with grant := none } } := by
    have hb : ∀ x ∈ rs, x.2.bad = false := fun x hx => by
      obtain ⟨w, hw⟩ := h x hx
      rw [hw]; rfl
    exact (congrArg (State.faultRecord 3 rs) (eccRead_clean true rs _ h)).trans (faultRecord_usable 3 _ hb)
  rcases bad_cases rs with hb | hb
  · obtain ⟨n, dirty, he, hn⟩ := eccRead_of_usable true { s with dram := { s.dram with grant := none } } hb
    have hu : u = _ := (faultRecord_usable 3 _ hb).trans he
    refine ⟨?_, fun h => ?_, hclean, fun _ => ?_, fun at_ syn h => absurd h (by simp [firstBad_none rs hb])⟩
    · rw [hu]; rfl
    · rw [hu]; exact hn h
    · rw [hu]; exact ⟨rfl, rfl, rfl⟩
  · obtain ⟨n, m, a, o, l, hu, hn, hm, ha, at_, syn, hf, ho⟩ := faultRecord_eccRead_of_bad true 3 { s with dram := { s.dram with grant := none } } hb
    have hu : u = _ := hu
    refine ⟨?_, fun h => ?_, hclean, fun h => ?_, fun at' syn' h => ⟨?_, ?_, ?_, fun h => ?_, ?_⟩⟩
    · rw [hu]; rfl
    · rw [hu]; exact hn h
    · obtain ⟨x, hx, hbad⟩ := hb
      exact absurd hbad (by simp [h x hx])
    · simp [slotAccepted, anyBad_true rs hb]
    · rw [hu]; exact ha
    · rw [hu]
    · rw [hu]; exact hm h
    · obtain ⟨rfl, rfl⟩ : at_ = at' ∧ syn = syn' := by simpa [hf] using h
      exact ho

/-! ## A record taken back (R188) -/

theorem recoverRecord_eq (hr : u.stg.rings = s.stg.rings) (hc : u.com = s.com) (hs : u.su = s.su) (c : ClassId) (q : Seq) :
    u.recoverRecord c q = { u with
      stg := { u.stg with rings := s.stg.rings.set c { s.stg.rings.get c with next := q + 1#32, staged := (s.stg.rings.get c).staged + 1 } }
      com := { s.com with queues := s.com.queues.set c (s.com.queues.get c ++ [q]) }
      su := { s.su with recovered := s.su.recovered.set c (s.su.recovered.get c + 1) }
      mir := { u.mir with dirty := true } } := by
  simp only [State.recoverRecord, hr, hc, hs]

theorem recoverSlot_refused (u : State) : u.recoverSlot c q false = u.recoverAfter c := rfl

theorem recoverSlot_accepted (hr : u.stg.rings = s.stg.rings) (hp : u.prof = s.prof) : u.recoverSlot c q true =
    if (s.stg.rings.get c).staged + 1 = (s.prof.classes.get c).capacity then (u.recoverRecord c q).recoverAfter c
    else (u.recoverRecord c q).readSlot c (q + 1#32) := by
  simp [State.recoverSlot, State.recoverRecord, hr, hp]

theorem readSlot_eq (hp : v.prof = s.prof) (d : ClassId) (q : Seq) : v.readSlot d q = { v with
    su := { v.su with recovery := some ⟨d, q⟩ }
    dram := { v.dram with waiting := v.dram.waiting.set .stager (some (.read
      ((s.prof.classes.get d).base / 4 + q.toNat % (s.prof.classes.get d).capacity * 16) 16)) } } := by
  rw [← hp]
  rfl

/-! ## A cold mount opens at once (R189) -/

theorem readCell_blank {cells : List (Nat × Word)} {b i : Nat} (h : blockBlank cells b = true) (hi : i < 1024) :
    readCell erasedWord cells (b * 1024 + i) = erasedWord := by
  have hin : inBlock b (b * 1024 + i) = true := (inBlock_iff _ _).mpr (by omega)
  induction cells with
  | nil => rfl
  | cons x cells ih =>
    obtain ⟨k, v⟩ := x
    simp only [blockBlank, List.all_cons, Bool.and_eq_true, Bool.or_eq_true, Bool.not_eq_true', beq_iff_eq] at h
    obtain ⟨hx, hrest⟩ := h
    rw [readCell]
    split
    next hk =>
      rw [hk] at hx
      exact hx.resolve_left (by simp [hin])
    next => exact ih hrest

/-- Settles O60. -/
theorem recoveryThenOpen : Obligations.RecoveryThenOpen := by
  unfold Obligations.RecoveryThenOpen
  refine ⟨fun s c q off hg hr he => ?_, fun s b hjob hp hst hw hi => ?_⟩
  · intro rs ring taken reads following last
    obtain ⟨hframe, hcor, hclean, husable, hbad⟩ := recoveryRead_does (q := q) off s
    rw [recoveryReadComplete_eq hg hr he]
    have hrings : (s.recoveryRead off).stg.rings = s.stg.rings := by rw [hframe]
    have hcom : (s.recoveryRead off).com = s.com := by rw [hframe]
    have hsu : (s.recoveryRead off).su = s.su := by rw [hframe]
    have hprof : (s.recoveryRead off).prof = s.prof := by rw [hframe]
    have htaken : (s.recoveryRead off).recoverRecord c q = taken (s.recoveryRead off) := recoverRecord_eq hrings hcom hsu c q
    refine ⟨s.recoveryRead off, hframe, hcor, hclean, husable, hbad, fun ha => ?_, fun ha => ?_⟩
    · rw [ha, recoverSlot_accepted hrings hprof, htaken]
      refine ⟨fun hn => ?_, fun hn => ⟨fun d hd => ?_, fun hl => ?_⟩⟩
      · rw [if_neg hn, readSlot_eq (v := taken (s.recoveryRead off)) hprof]
      · obtain ⟨hlt, hconf, hnone⟩ := hd
        have hnext : ((taken (s.recoveryRead off)).stg.rings.get d).next = (s.stg.rings.get d).next :=
          congrArg ClassRing.next (Four.get_set_ne _ _ _ _ (Fin.ne_of_gt hlt))
        rw [if_pos hn, recoverAfter_following (v := taken (s.recoveryRead off)) hprof hlt hconf hnone, hnext,
          readSlot_eq (v := taken (s.recoveryRead off)) hprof]
      · rw [if_pos hn, recoverAfter_last (v := taken (s.recoveryRead off)) hprof hl]
        exact ⟨_, rfl, opened _⟩
    · rw [ha, recoverSlot_refused]
      refine ⟨fun d hd => ?_, fun hl => ?_⟩
      · obtain ⟨hlt, hconf, hnone⟩ := hd
        rw [recoverAfter_following hprof hlt hconf hnone, hrings, readSlot_eq hprof]
      · rw [recoverAfter_last hprof hl]
        exact ⟨_, rfl, opened _⟩
  · obtain ⟨i, hlt, hne⟩ := hi
    have hused : blockBlank s.flash.cells b = false := by
      rw [← Bool.not_eq_true]
      exact fun h => hne (readCell_blank h hlt)
    rw [blankCheckEnd_start hjob, startChecked_mount (v := s.deviceFreed) b _ hp, hused, mountChecked_used (v := s.deviceFreed) hst]
    exact ⟨_, rfl, (endMount_mountEnds s.deviceFreed).2 hw⟩

end Recovery
end Sys2Proof.Machine
